-- ==== Sys2Proof/Word.lean ====
section
/-!
DEFINITION. Word.lean: the word types of the Cagora VX4 and the container for its four lines.
Bytes, half-words and 32-bit quantities are bit vectors because the manual stores, wraps and masks them (00 Conventions, R47);
an internal sample is 14-bit two's complement (R97).
-/
namespace Sys2Proof

/-- One byte of exchange memory. -/
abbrev Byte := BitVec 8

/-- A 16-bit half-word: the bus width (R2), sequence numbers, counters, phases. -/
abbrev Half := BitVec 16

/-- A 32-bit wrapping quantity: SC, timestamps, the cursor, transits (R47). -/
abbrev Word := BitVec 32

/-- An internal sample, −8192..8191 in two's complement (R97). -/
abbrev Sample := BitVec 14

/-- A frame of 80 samples, earliest first (R103). -/
abbrev Frame := List Sample

/-- A cell number, 0..125 (R1). -/
abbrev CellNo := Fin 126

/-- A port or channel number; channel n is paired with port n (R180). -/
abbrev LineNo := Fin 4

/-- Silence is 80 samples of 0 (R97). -/
def silence : Frame := List.replicate 80 0

/-- One value for each of the four lines. -/
structure Four (α : Type) where
  l0 : α
  l1 : α
  l2 : α
  l3 : α
deriving DecidableEq, Repr

/-- The value of line n. -/
def Four.get {α : Type} (v : Four α) (n : LineNo) : α :=
  match n with
  | 0 => v.l0
  | 1 => v.l1
  | 2 => v.l2
  | 3 => v.l3

/-- The four values with line n's replaced. -/
def Four.set {α : Type} (v : Four α) (n : LineNo) (x : α) : Four α :=
  match n with
  | 0 => { v with l0 := x }
  | 1 => { v with l1 := x }
  | 2 => { v with l2 := x }
  | 3 => { v with l3 := x }

/-- The same value for every line. -/
def Four.all {α : Type} (x : α) : Four α := ⟨x, x, x, x⟩

/-- Each line's value from its number and its old value. -/
def Four.mapIdx {α β : Type} (f : LineNo → α → β) (v : Four α) : Four β :=
  ⟨f 0 v.l0, f 1 v.l1, f 2 v.l2, f 3 v.l3⟩

end Sys2Proof
end

