-- ==== Sys2Proof/Syntax.lean ====
section
/-!
DEFINITION. Syntax.lean: the commands of the Cagora VX4, one constructor per row of spec/opcode_table.json.
-/
namespace Sys2Proof

/-- The two tallies (R6, R7). -/
inductive Tally where
  | posts
  | ready
deriving DecidableEq, Repr

/-- Where a tone trigger came from: TONE_LINE for a line run, TONE_FAR for a far run (R75). -/
inductive TriggerCause where
  | toneLine
  | toneFar
deriving DecidableEq, Repr

/-- The byte lanes enabled at a bus write: HBL# for the low byte, HBH# for the high byte (R2). -/
structure Lanes where
  low : Bool
  high : Bool
deriving DecidableEq, Repr

/-- The part's own events that may come together with a sweep and fall between two of its takes (R8). -/
inductive PartEvent where
  | frameBoundary (ch : LineNo)
  | farFrame (p : LineNo)
  | captureEvent (ch : LineNo)
  | lineVerdict (p : LineNo)
  | toneTrigger (ch : LineNo) (cause : TriggerCause)
  | lineScan (p : LineNo) (hook trip : Bool)
  | portTimer (p : LineNo)
  | cadenceTick (p : LineNo)
  | ringDrive (p : LineNo)
  | markWriter
deriving DecidableEq, Repr

/-- The commands. Host accesses carry what stands on the bus; line events carry what their pins carry; an event of the part's own
carries the line it belongs to and is taken only when it is due (log 3). -/
inductive Instr where
  /-- POWER_ON_RESET (R186): RST# is driven. With none for `ram` it has gone low and stays low; else it is high again, and `ram` is what the
  RAM happens to hold: R5 leaves it undefined, so it may be anything (log 2, log 10). -/
  | powerOnReset (ram : Option (List (Nat × Byte)))
  /-- SOFT_RESET (R185): a RUNCTL write whose RESET field is 1. -/
  | softReset (lanes : Lanes) (data : Half)
  /-- RUN (R183): a RUNCTL write whose RUN field is 1. -/
  | run (lanes : Lanes) (data : Half)
  /-- GUARD_CLEAR (R16): a RUNCTL write whose GUARD field is 1. -/
  | guardClear (lanes : Lanes) (data : Half)
  /-- ATTNCTL_WRITE (R184). -/
  | attnctlWrite (lanes : Lanes) (data : Half)
  /-- PEEK on a tally (R6). -/
  | peek (t : Tally)
  /-- ADD on a tally (R6). -/
  | add (t : Tally)
  /-- TAKE on a tally (R6). -/
  | take (t : Tally)
  /-- CLEAR on a tally (R6). -/
  | clear (t : Tally)
  /-- WINDOW_WRITE_DISCARDED (R3): a write at bus address 10000h + 2·`half`. -/
  | windowWriteDiscarded (half : BitVec 15) (lanes : Lanes) (data : Half)
  /-- HOST_MEMORY_WRITE (R2): a write at byte address 2·`half` of exchange memory. -/
  | hostMemoryWrite (half : BitVec 15) (lanes : Lanes) (data : Half)
  /-- SWEEP (R8). `work` gives, for each clash, take and order entry in turn, the sample periods that pass just before it, each with the
  four samples the link delivers in it: R46 leaves open how many. None passes before the other events of the instant have been taken.
  `between` gives the events taken just before a cell's stamp is examined, in their order, since R8 lets the part's other events fall there
  (log 5). -/
  | sweep (work : List (List (Four Sample))) (between : List (CellNo × PartEvent))
  /-- FRAME_BOUNDARY of a channel (R59). -/
  | frameBoundary (ch : LineNo)
  /-- FAR_FRAME of a port (R165): its oldest far frame handed and not yet taken. -/
  | farFrame (p : LineNo)
  /-- CAPTURE_EVENT of a channel (R81). -/
  | captureEvent (ch : LineNo)
  /-- LINE_VERDICT of a port (R163). -/
  | lineVerdict (p : LineNo)
  /-- TONE_TRIGGER taken by a channel (R75). -/
  | toneTrigger (ch : LineNo) (cause : TriggerCause)
  /-- LINE_SCAN of a port (R115) with the levels of HOOKn and TRIPn (true is active). -/
  | lineScan (p : LineNo) (hook trip : Bool)
  /-- PORT_TIMER_EXPIRY of a port (R117). -/
  | portTimerExpiry (p : LineNo)
  /-- CLEARED: the port timer expiry that brings the break count to hangup_min (R121). -/
  | cleared (p : LineNo)
  /-- DIGIT_GAP_EXPIRY: the port timer expiry that brings the digit-gap count to digit_gap (R123). -/
  | digitGapExpiry (p : LineNo)
  /-- CADENCE_TICK of a port's cadence run (R132). -/
  | cadenceTick (p : LineNo)
  /-- CADENCE_ADVANCE: the cadence tick that ends the current half (R132). -/
  | cadenceAdvance (p : LineNo)
  /-- GRANT_PASS: the cadence tick at which a port's burst ends and its grant passes on (R139). -/
  | grantPass (p : LineNo)
  /-- RING_DRIVE_TOGGLE of a port (R137). -/
  | ringDriveToggle (p : LineNo)
  /-- IDENT_START: the cadence tick that brings the identity delay count to 0 (R150). -/
  | identStart (p : LineNo)
  /-- IDENT_SENT: the cadence tick that brings the send count to 0 (R150). -/
  | identSent (p : LineNo)
  /-- IDENT_TAIL_END: the cadence tick that brings the tail count to 0 (R150). -/
  | identTailEnd (p : LineNo)
  /-- MARK_WRITER_BOUNDARY (R179). -/
  | markWriterBoundary
  /-- SAMPLE_PERIOD (R44) with the four samples the link delivers in it. -/
  | samplePeriod (line : Four Sample)
deriving DecidableEq, Repr

end Sys2Proof
end

