-- ==== Sys2Proof/Machine/State.lean ====
section
/-!
DEFINITION. Machine/State.lean: every piece of state the spec gives the VX4, block by block, and the state after power-on reset.
INVENTORY.md lists each field with its rule and reset value. Fields that are the model's own say so.
-/
namespace Sys2Proof.Machine

/-- Why the machine stops with a fault: never. R6, R10, R15, R173 and R174 give every command an effect or a discard, so no
command ends a run; nothing raises a fault, and that is safe, since there is no stop to rely on. -/
inductive Fault
deriving DecidableEq, Repr

/-- Why the machine refuses a command. -/
inductive Refusal where
  /-- A command without a meaning, by its mnemonic: raised by no arm of `exec`, since every row has its meaning. Safe: a refusal gives no state. -/
  | notModelled (mnemonic : String)
deriving DecidableEq, Repr

/-! ### Exchange unit (chapter 1) -/

/-- What a kept cell serves as (R13). A parcel cell carries its channel and its reference count (R39). -/
inductive Role where
  | parcel (ch : LineNo) (refs : Nat)
  | sheet
  | spare
  | assembly (ch : LineNo)
  | markSheet
deriving DecidableEq, Repr

/-- A kept cell's entry in the keeping: its role and its clash flag (R12, R13). -/
structure Kept where
  role : Role
  clash : Bool
deriving DecidableEq, Repr

/-- Exchange memory: strictly rising (address, byte) pairs; an address not listed reads 00h (log 1). -/
abbrev Memory := List Host.Cell

/-- The exchange unit's state (R6, R13, R15, R17, R19). `keeping` lists the kept cells in rising order. -/
structure Exchange where
  posts : BitVec 8
  ready : BitVec 8
  keeping : List (Nat × Kept)
  spare : List CellNo
  reserve : Nat
  guard : Bool
  guardAddr : Half
deriving DecidableEq, Repr

/-- The bus's own state: the ATTNCTL enables (R184); `held`, whether RST# is held low (R186); and `readData`, the half-word that the last
read at an operation address returned (R6, log 9). -/
structure Bus where
  held : Bool
  enReady : Bool
  enGuard : Bool
  readData : Half
deriving DecidableEq, Repr

/-! ### Clock (chapter 3) -/

/-- The sample clock (R44, R45). `phase` counts the samples since the last point of the boundary grid, `boundaries` the frame
boundaries since RUNNING. The model's own: `boundarySc`, SC at the last boundary (R170); and `work`, the sample
periods that will pass before each next step of a running sweep (R46, log 5). -/
structure Clock where
  running : Bool
  sc : Word
  phase : Nat
  boundaries : Word
  boundarySc : Word
  work : List (List (Four Sample))
deriving DecidableEq, Repr

/-- The part's own events, each taken once at each instant at which it falls due (R8, R58, R81, R115, R117, R132, R163, R179). -/
inductive Event where
  | sweep
  | frame (ch : LineNo)
  | capture (ch : LineNo)
  | verdict (p : LineNo)
  | tick (p : LineNo)
  | scan (p : LineNo)
  | timer (p : LineNo)
  | markWriter
deriving DecidableEq, Repr

/-- Which events have fallen due and are not yet taken (the model's own form of the timers and the grid, log 3). -/
structure Due where
  sweep : Bool
  frame : Four Bool
  capture : Four Bool
  verdict : Four Bool
  tick : Four Bool
  scan : Four Bool
  timer : Four Bool
  markWriter : Bool
deriving DecidableEq, Repr

/-! ### Channels (chapters 2 to 5) -/

/-- The playout states (R21). -/
inductive ChanState where
  | closed
  | waiting
  | flowing
  | gap
deriving DecidableEq, Repr

/-- The two modes of a channel (R70). -/
inductive Mode where
  | speech
  | steady
deriving DecidableEq, Repr

/-- The three codings (chapter 6). -/
inductive Coding where
  | mu
  | a
  | lin16
deriving DecidableEq, Repr

/-- Whether a block carries audio for the first time or again (R28). -/
inductive Origin where
  | primary
  | redundant
deriving DecidableEq, Repr

/-- A playout entry (R21). -/
structure Entry where
  ts : Word
  cell : CellNo
  block : Nat
  coding : Coding
  origin : Origin
deriving DecidableEq, Repr

/-- The open parameters as R25 stores them. -/
structure OpenParams where
  coding : Coding
  packing : Nat
  redundancy : Nat
  minFrames : Nat
  maxFrames : Nat
  baseFrames : Nat
  steadyMargin : Nat
  steadyTrigger : Nat
  vadThreshold : Nat
  hangover : Nat
  playoutGain : Nat
  captureGain : Nat
  autoSteady : Bool
  muteDigits : Bool
  initSeq : Half
  initTs : Word
deriving DecidableEq, Repr

/-- The twelve counters in the order of R42's table. -/
inductive Counter where
  | played
  | concealed
  | filled
  | lateBlocks
  | earlyBlocks
  | duplicateBlocks
  | recoveredBlocks
  | realignedBlocks
  | trimmedFrames
  | resyncs
  | parcelsSent
  | starvedPeriods
deriving DecidableEq, Repr

/-- The channel record (R21). `counters` holds the twelve counters in R42's order. -/
structure Channel where
  state : ChanState
  mode : Mode
  cursor : Word
  list : List Entry
  j16 : Nat
  prevTransit : Option Word
  target : Nat
  steady : Option Nat
  hold : Nat
  excess : Nat
  trim : Bool
  lateRun : Nat
  earlyRun : Nat
  conceal : Nat
  last : Frame
  params : OpenParams
  counters : List Half
  rollover : BitVec 12
deriving DecidableEq, Repr

/-- The capture states (R79). -/
inductive CapState where
  | closed
  | silent
  | sending
  | packing
deriving DecidableEq, Repr

/-- The capture record (R79). `history` is newest first. -/
structure Capture where
  state : CapState
  periodMode : Mode
  frames : Nat
  assembly : Option CellNo
  periodTs : Word
  periodQ : Nat
  spurt : Bool
  starving : Bool
  inactive : Nat
  nextSeq : Half
  tsCounter : Word
  history : List Frame
deriving DecidableEq, Repr

/-! ### Ports (chapter 7) -/

/-- The port states (R107). -/
inductive PortState where
  | down
  | idle
  | ringing
  | offhook
deriving DecidableEq, Repr

/-- The direction of the loop feed (R107). -/
inductive Polarity where
  | forward
  | reversed
deriving DecidableEq, Repr

/-- The four break values, in ms (R107). -/
structure BreakTiming where
  pulseMin : Nat
  flashMin : Nat
  hangupMin : Nat
  digitGap : Nat
deriving DecidableEq, Repr

/-- The port record (R107). `filtered` is true for off-hook; a count that is `none` is stopped. `played` is the frame of R128, empty
while there is none; `output` is the sample last sent (R127); `lineBuf` the samples delivered since the last boundary instant, newest
first, and `lineFrame` the samples of the 80 periods before it, earliest first (R81, R129). -/
structure Port where
  state : PortState
  polarity : Polarity
  filter : Nat
  ordered : BreakTiming
  timing : BreakTiming
  filtered : Bool
  differing : Nat
  breakCount : Option Nat
  gapCount : Option Nat
  pulses : Nat
  played : Frame
  output : Sample
  lineBuf : List Sample
  lineFrame : Frame
deriving DecidableEq, Repr

/-! ### Ringing, identity and tones (chapters 8 and 9) -/

/-- A cadence run (R131): the record's flags and its eight durations as the record lists them (on 0, off 0, on 1, …), the position of
the current half in play order, and the segment count. -/
structure CadenceRun where
  once : Bool
  offFirst : Bool
  durations : List Nat
  pos : Nat
  count : Nat
deriving DecidableEq, Repr

/-- The sub-phases of a ringing port (R133). -/
inductive SubPhase where
  | none
  | burst
  | rest
  | waitGrant
  | ident
deriving DecidableEq, Repr

/-- The ring context (R133). `level` is the level of the drive wave, low outside BURST (R137). -/
structure Ring where
  sub : SubPhase
  run : Option CadenceRun
  freq : Nat
  drive : Nat
  level : Bool
  trip : Nat
  bursts : Nat
  waitStamp : Word
deriving DecidableEq, Repr

/-- The identity statuses (R133). -/
inductive IdentStatus where
  | none
  | pending
  | sending
  | tail
  | sent
deriving DecidableEq, Repr

/-- The identity context (R133). `hold` is the identity hold of the first rest (R150). -/
structure Ident where
  status : IdentStatus
  buffer : List Byte
  delay : Nat
  send : Nat
  tail : Nat
  sent : Nat
  phase : Half
  hold : Bool
deriving DecidableEq, Repr

/-- The arbiter of the ring supply (R133). -/
structure Arbiter where
  grantA : Option LineNo
  grantB : Option LineNo
  waitList : List LineNo
deriving DecidableEq, Repr

/-- The tone context (R155). `half` is true in an on-half. -/
structure Tone where
  running : Bool
  index : Nat
  cadence : Nat
  f1 : Nat
  a1 : Nat
  f2 : Nat
  a2 : Nat
  inc1 : Nat
  inc2 : Nat
  ph1 : Half
  ph2 : Half
  run : Option CadenceRun
  half : Bool
deriving DecidableEq, Repr

/-- A tone run (R168). -/
structure ToneRun where
  count : Nat
  fired : Bool
deriving DecidableEq, Repr

/-- A far frame handed over (R165): the count of boundaries and SC at its boundary, whether it is the first since the channel was opened,
and its samples. -/
structure FarFrame where
  boundary : Word
  sc : Word
  afresh : Bool
  samples : Frame
deriving DecidableEq, Repr

/-- The verdict state of a port: the line debounce (R167), the four tone runs (R168), the last far frame's boundary count (R165), the
far frames handed and not yet taken (R165), and the tone triggers passed and not yet taken (R75, R168). `reopened` is true from an
opening of the paired channel to its next far frame, since a reopening breaks the far runs (R165, log 26). -/
structure Verdict where
  candidate : Option Nat
  candRun : Nat
  digitOn : Option Nat
  offRun : Nat
  onCount : Nat
  lineAnswer : ToneRun
  lineCalling : ToneRun
  farAnswer : ToneRun
  farCalling : ToneRun
  lastFar : Option Word
  reopened : Bool
  farFrames : List FarFrame
  triggers : List TriggerCause
deriving DecidableEq, Repr

/-! ### Mark writer (chapter 10) -/

/-- The kinds of mark (R180). -/
inductive MarkKind where
  | seized
  | cleared
  | flash
  | digitPulse
  | dialFault
  | answered
  | ringDone
  | identSent
  | identAborted
  | toneDone
  | digitOn
  | digitOff
  | answerTone
  | callingTone
  | modeSteady
  | modeSpeech
  | resync
  | starved
  | stampClash
  | marksLost
deriving DecidableEq, Repr

/-- A mark (R180): `line` is the port or channel number, or FFh. -/
structure Mark where
  kind : MarkKind
  line : Byte
  detail16 : Half
  time : Word
  detail32 : Word
deriving DecidableEq, Repr

/-- The mark writer's state (R175). -/
structure MarkWriter where
  sheet : Option CellNo
  count : Nat
  queue : List Mark
  lost : Nat
deriving DecidableEq, Repr

/-! ### The whole part -/

/-- The state of the VX4, and the queue of the commands that wait for it, first in first out. -/
structure State where
  clock : Clock
  due : Due
  mem : Memory
  ex : Exchange
  bus : Bus
  chan : Four Channel
  cap : Four Capture
  port : Four Port
  ring : Four Ring
  ident : Four Ident
  arb : Arbiter
  tone : Four Tone
  verdict : Four Verdict
  marks : MarkWriter
  pending : List Instr
deriving DecidableEq, Repr

/-! ### Reset values -/

/-- The exchange unit at either reset (R20). -/
def Exchange.reset : Exchange :=
  { posts := 0, ready := 0, keeping := [], spare := [], reserve := 1, guard := false, guardAddr := 0 }

/-- The bus with RST# high, after either reset (R184, R186; `readData` by log 9). -/
def Bus.reset : Bus := { held := false, enReady := false, enGuard := false, readData := 0 }

/-- The clock at either reset: HALTED, SC 0 (R44, R183; the grid's fields by log 7). -/
def Clock.reset : Clock :=
  { running := false, sc := 0, phase := 0, boundaries := 0, boundarySc := 0, work := [] }

/-- No event is due: at either reset every timer is stopped (R20, R183; log 3). -/
def Due.reset : Due :=
  { sweep := false, frame := .all false, capture := .all false, verdict := .all false, tick := .all false,
    scan := .all false, timer := .all false, markWriter := false }

/-- The open parameters at either reset (R22, R25). -/
def OpenParams.reset : OpenParams :=
  { coding := .mu, packing := 1, redundancy := 0, minFrames := 2, maxFrames := 12, baseFrames := 2, steadyMargin := 0,
    steadyTrigger := 20, vadThreshold := 0, hangover := 0, playoutGain := 16, captureGain := 16, autoSteady := false,
    muteDigits := false, initSeq := 0, initTs := 0 }

/-- A channel record at either reset (R22, R78). -/
def Channel.reset : Channel :=
  { state := .closed, mode := .speech, cursor := 0, list := [], j16 := 0, prevTransit := none, target := 2, steady := none,
    hold := 0, excess := 0, trim := false, lateRun := 0, earlyRun := 0, conceal := 0, last := silence,
    params := OpenParams.reset, counters := List.replicate 12 0, rollover := 0 }

/-- A capture record at either reset (R80, R94; the period's own fields by log 7). -/
def Capture.reset : Capture :=
  { state := .closed, periodMode := .speech, frames := 0, assembly := none, periodTs := 0, periodQ := 0, spurt := false,
    starving := false, inactive := 0, nextSeq := 0, tsCounter := 0, history := [] }

/-- The break values at either reset (R108). -/
def BreakTiming.reset : BreakTiming := { pulseMin := 20, flashMin := 100, hangupMin := 800, digitGap := 300 }

/-- A port record at either reset (R108; the line samples by log 7). -/
def Port.reset : Port :=
  { state := .down, polarity := .forward, filter := 8, ordered := BreakTiming.reset, timing := BreakTiming.reset,
    filtered := false, differing := 0, breakCount := none, gapCount := none, pulses := 0, played := [], output := 0,
    lineBuf := [], lineFrame := [] }

/-- A ring context at either reset (R134; drive count and wait stamp by log 7). -/
def Ring.reset : Ring :=
  { sub := .none, run := none, freq := 24, drive := 0, level := false, trip := 0, bursts := 0, waitStamp := 0 }

/-- An identity context at either reset (R134; the counts by log 7). -/
def Ident.reset : Ident :=
  { status := .none, buffer := [], delay := 0, send := 0, tail := 0, sent := 0, phase := 0, hold := false }

/-- The arbiter at either reset (R134). -/
def Arbiter.reset : Arbiter := { grantA := none, grantB := none, waitList := [] }

/-- A tone context at either reset (R155). -/
def Tone.reset : Tone :=
  { running := false, index := 0, cadence := 0, f1 := 0, a1 := 0, f2 := 0, a2 := 0, inc1 := 0, inc2 := 0, ph1 := 0, ph2 := 0,
    run := none, half := false }

/-- A tone run that has counted nothing (R171). -/
def ToneRun.reset : ToneRun := { count := 0, fired := false }

/-- A port's verdict state at either reset (R171; the two queues by log 21, `reopened` by log 26). -/
def Verdict.reset : Verdict :=
  { candidate := none, candRun := 0, digitOn := none, offRun := 0, onCount := 0, lineAnswer := ToneRun.reset,
    lineCalling := ToneRun.reset, farAnswer := ToneRun.reset, farCalling := ToneRun.reset, lastFar := none, reopened := false,
    farFrames := [], triggers := [] }

/-- The mark writer at either reset (R175). -/
def MarkWriter.reset : MarkWriter := { sheet := none, count := 0, queue := [], lost := 0 }

/-- The part right after a power-on reset: every block at its power-on values, HALTED, nothing listed in memory (R186, log 1), and no
command waiting. -/
def State.reset : State :=
  { clock := Clock.reset, due := Due.reset, mem := [], ex := Exchange.reset, bus := Bus.reset, chan := .all Channel.reset,
    cap := .all Capture.reset, port := .all Port.reset, ring := .all Ring.reset, ident := .all Ident.reset,
    arb := Arbiter.reset, tone := .all Tone.reset, verdict := .all Verdict.reset, marks := MarkWriter.reset, pending := [] }

end Sys2Proof.Machine
end

