-- ==== Sys2Proof/Machine/Ops.lean ====
section
/-!
DEFINITION. Machine/Ops.lean: the named operations over exchange memory, the tallies, the keeping, the spare stock, the per-line records
and the due events. Every other file of Machine/ reads and writes the state through them.
-/
namespace Sys2Proof.Machine

/-! ### Byte order (R187) -/

/-- The half-word whose low byte is `lo` and whose high byte is `hi`. -/
def le16 (lo hi : Byte) : Half := hi ++ lo

/-- The 32-bit value of four bytes, least significant first. -/
def le32 (b0 b1 b2 b3 : Byte) : Word := b3 ++ b2 ++ b1 ++ b0

/-- The two bytes of a half-word, low byte first. -/
def bytes16 (h : Half) : List Byte := [h.extractLsb' 0 8, h.extractLsb' 8 8]

/-- The four bytes of a 32-bit value, low byte first. -/
def bytes32 (w : Word) : List Byte :=
  [w.extractLsb' 0 8, w.extractLsb' 8 8, w.extractLsb' 16 8, w.extractLsb' 24 8]

/-- A number as a byte. -/
def byteOf (n : Nat) : Byte := BitVec.ofNat 8 n

/-- A line number as a byte. -/
def lineByte (n : LineNo) : Byte := BitVec.ofNat 8 n.val

/-! ### Sorted tables: the one form in which memory and the keeping are held -/

/-- The value at a key of a table with rising keys. -/
def tableGet {α : Type} : List (Nat × α) → Nat → Option α
  | [], _ => none
  | (k, v) :: t, a => if a = k then some v else if a < k then none else tableGet t a

/-- The table with a key set to a value. -/
def tablePut {α : Type} : List (Nat × α) → Nat → α → List (Nat × α)
  | [], a, v => [(a, v)]
  | (k, w) :: t, a, v =>
    if a = k then (a, v) :: t else if a < k then (a, v) :: (k, w) :: t else (k, w) :: tablePut t a v

/-- The table without a key. -/
def tableDrop {α : Type} : List (Nat × α) → Nat → List (Nat × α)
  | [], _ => []
  | (k, w) :: t, a => if a = k then t else if a < k then (k, w) :: t else (k, w) :: tableDrop t a

/-- The keys rise strictly. -/
def tableRising {α : Type} : List (Nat × α) → Bool
  | [] => true
  | [_] => true
  | (a, _) :: (b, v) :: t => decide (a < b) && tableRising ((b, v) :: t)

/-! ### Exchange memory (R1) -/

/-- What an address reads as while nothing has been written to it: 00h (DESIGN CHOICE, log 1). -/
def unlistedByte : Byte := 0

/-- The byte at an address. -/
def Memory.read (m : Memory) (a : Nat) : Byte := (tableGet m a).getD unlistedByte

/-- The memory with a byte stored at an address, in canonical form. An address above FFFFh names no byte (R1); the part forms none. -/
def Memory.write (m : Memory) (a : Nat) (b : Byte) : Memory :=
  if 65536 ≤ a then m else if b = unlistedByte then tableDrop m a else tablePut m a b

/-- The canonical form: addresses strictly rising, all in 0..FFFFh, and no entry that reads as an unlisted address does. -/
def Memory.wf (m : Memory) : Bool :=
  tableRising m && m.all fun c => decide (c.1 < 65536) && c.2 != unlistedByte

/-- The memory that holds given bytes, a later pair for one address winning; pairs outside 0..FFFFh name no byte and are left out. -/
def Memory.ofCells (cells : List Host.Cell) : Memory :=
  cells.foldl (fun m c => m.write c.1 c.2) []

/-- Consecutive bytes stored from an address up. -/
def Memory.writeList (m : Memory) (a : Nat) : List Byte → Memory
  | [] => m
  | b :: bs => Memory.writeList (m.write a b) (a + 1) bs

/-- The address of a byte of a cell (R1). -/
def cellAddr (n : CellNo) (off : Nat) : Nat := 0x400 + 512 * n.val + off

/-- The cell that an address lies in, or none below 0400h (R1). -/
def cellOfAddr (a : Nat) : Option Nat := if a < 0x400 then none else some ((a - 0x400) / 512)

/-- The byte at an address. -/
def State.byteAt (s : State) (a : Nat) : Byte := s.mem.read a

/-- A little-endian half-word of memory (R187). -/
def State.halfAt (s : State) (a : Nat) : Half := le16 (s.byteAt a) (s.byteAt (a + 1))

/-- A little-endian 32-bit value of memory (R187). -/
def State.wordAt (s : State) (a : Nat) : Word :=
  le32 (s.byteAt a) (s.byteAt (a + 1)) (s.byteAt (a + 2)) (s.byteAt (a + 3))

/-- A byte of a cell. -/
def State.cellByte (s : State) (n : CellNo) (off : Nat) : Byte := s.byteAt (cellAddr n off)

/-- A half-word of a cell. -/
def State.cellHalf (s : State) (n : CellNo) (off : Nat) : Half := s.halfAt (cellAddr n off)

/-- A 32-bit value of a cell. -/
def State.cellWord (s : State) (n : CellNo) (off : Nat) : Word := s.wordAt (cellAddr n off)

/-- A byte stored into memory by the part. -/
def State.putByte (s : State) (a : Nat) (b : Byte) : State := { s with mem := s.mem.write a b }

/-- Bytes stored into a cell by the part, from an offset up. -/
def State.putCell (s : State) (n : CellNo) (off : Nat) (bs : List Byte) : State :=
  { s with mem := s.mem.writeList (cellAddr n off) bs }

/-- The stamp of a cell (R1). -/
def State.stamp (s : State) (n : CellNo) : Byte := s.byteAt n.val

/-! ### Stamps (R4) -/

/-- Stamp codes of R4's table. -/
def stampPostedParcel : Byte := 0x11
def stampPostedSheet : Byte := 0x12
def stampGranted : Byte := 0x13
def stampKept : Byte := 0x21
def stampOutParcel : Byte := 0x31
def stampOutMarks : Byte := 0x32
def stampReturned : Byte := 0x33
def stampAnswered : Byte := 0x34
def stampRefused : Byte := 0x3F

/-- The three posting stamps (R4). -/
def isPosting (b : Byte) : Bool := b == stampPostedParcel || b == stampPostedSheet || b == stampGranted

/-! ### Tallies (R6, R7) -/

/-- ADD: one more, holding at 255. -/
def tallyAdd (v : BitVec 8) : BitVec 8 := if v = 255 then 255 else v + 1

/-- TAKE: one less, holding at 0. -/
def tallyTake (v : BitVec 8) : BitVec 8 := if v = 0 then 0 else v - 1

/-- The value of a tally. -/
def State.tally (s : State) : Tally → BitVec 8
  | .posts => s.ex.posts
  | .ready => s.ex.ready

/-- A tally set to a value. -/
def State.setTally (s : State) (t : Tally) (v : BitVec 8) : State :=
  match t with
  | .posts => { s with ex := { s.ex with posts := v } }
  | .ready => { s with ex := { s.ex with ready := v } }

/-! ### The per-line records -/

/-- Channel n's record replaced. -/
def State.setChan (s : State) (n : LineNo) (c : Channel) : State := { s with chan := s.chan.set n c }

/-- Capture side n's record replaced. -/
def State.setCap (s : State) (n : LineNo) (c : Capture) : State := { s with cap := s.cap.set n c }

/-- Port n's record replaced. -/
def State.setPort (s : State) (n : LineNo) (p : Port) : State := { s with port := s.port.set n p }

/-- Ring context n replaced. -/
def State.setRing (s : State) (n : LineNo) (r : Ring) : State := { s with ring := s.ring.set n r }

/-- Identity context n replaced. -/
def State.setIdent (s : State) (n : LineNo) (i : Ident) : State := { s with ident := s.ident.set n i }

/-- Tone context n replaced. -/
def State.setTone (s : State) (n : LineNo) (t : Tone) : State := { s with tone := s.tone.set n t }

/-- Verdict state n replaced. -/
def State.setVerdict (s : State) (n : LineNo) (v : Verdict) : State := { s with verdict := s.verdict.set n v }

/-! ### The keeping, the hand-over and the spare stock (R13, R14, R17, R18) -/

/-- A cell's entry in the keeping. -/
def State.keptAt (s : State) (n : Nat) : Option Kept := tableGet s.ex.keeping n

/-- Whether a cell is in the keeping. -/
def State.isKept (s : State) (n : Nat) : Bool := (s.keptAt n).isSome

/-- A cell's entry in the keeping set. -/
def State.setKept (s : State) (n : CellNo) (k : Kept) : State :=
  { s with ex := { s.ex with keeping := tablePut s.ex.keeping n.val k } }

/-- A kept cell moved to a role, its clash flag unchanged (R13). -/
def State.setRole (s : State) (n : CellNo) (r : Role) : State :=
  s.setKept n { role := r, clash := ((s.keptAt n.val).map Kept.clash).getD false }

/-- R14: the stamp is written, the cell leaves the keeping, and READY has an ADD. -/
def State.handOver (s : State) (n : CellNo) (stamp : Byte) : State :=
  { s with
    mem := s.mem.write n.val stamp
    ex := { s.ex with keeping := tableDrop s.ex.keeping n.val, ready := tallyAdd s.ex.ready } }

/-- R10: a refusal writes the reason into header byte 16 and hands the cell over as REFUSED. -/
def State.refuseCell (s : State) (n : CellNo) (reason : Byte) : State :=
  (s.putCell n 16 [reason]).handOver n stampRefused

/-- The oldest spare cell moved to a role of the claiming block, if the stock holds more than `floor` cells (R18). -/
def State.claim (s : State) (floor : Nat) (r : Role) : Option (CellNo × State) :=
  match s.ex.spare with
  | [] => none
  | c :: rest =>
    if floor < rest.length + 1 then
      some (c, ({ s with ex := { s.ex with spare := rest } }).setRole c r)
    else none

/-- R18: a mark-sheet claim succeeds while the stock holds at least 1 cell. -/
def State.claimMarks (s : State) : Option (CellNo × State) := s.claim 0 .markSheet

/-- R18: an outbound claim succeeds while the stock holds more cells than the mark reserve. -/
def State.claimOutbound (s : State) (ch : LineNo) : Option (CellNo × State) := s.claim s.ex.reserve (.assembly ch)

/-- R39: an entry naming a cell has left a list; the reference count falls by 1, and at 0 the cell is handed over as RETURNED. -/
def State.dropRef (s : State) (n : CellNo) : State :=
  match s.keptAt n.val with
  | some { role := .parcel ch refs, clash := _ } =>
    if refs ≤ 1 then s.handOver n stampReturned else s.setRole n (.parcel ch (refs - 1))
  | _ => s

/-- Every entry of a list leaves it, in list order (R27, R38). -/
def State.dropRefs (s : State) (es : List Entry) : State := es.foldl (fun s e => s.dropRef e.cell) s

/-! ### Time -/

/-- SC at the event being taken (R46, R77, R173, R180). -/
def State.now (s : State) : Word := s.clock.sc

/-! ### Due events (log 3) -/

/-- Whether an event has fallen due and is not yet taken. -/
def Due.has (d : Due) : Event → Bool
  | .sweep => d.sweep
  | .frame n => d.frame.get n
  | .capture n => d.capture.get n
  | .verdict n => d.verdict.get n
  | .tick n => d.tick.get n
  | .scan n => d.scan.get n
  | .timer n => d.timer.get n
  | .markWriter => d.markWriter

/-- The due events without one of them. -/
def Due.without (d : Due) : Event → Due
  | .sweep => { d with sweep := false }
  | .frame n => { d with frame := d.frame.set n false }
  | .capture n => { d with capture := d.capture.set n false }
  | .verdict n => { d with verdict := d.verdict.set n false }
  | .tick n => { d with tick := d.tick.set n false }
  | .scan n => { d with scan := d.scan.set n false }
  | .timer n => { d with timer := d.timer.set n false }
  | .markWriter => { d with markWriter := false }

/-- An event no longer due: it is taken, or it does not apply to what has just begun. -/
def State.undue (s : State) (e : Event) : State := { s with due := s.due.without e }

/-- Whether the part can take an event now: RUNNING, and the event due (R183, log 3). -/
def State.canTake (s : State) (e : Event) : Bool := s.clock.running && s.due.has e

/-- An event of the part's own: when it can be taken, it is taken once; else nothing happens (R183, R185, log 3). -/
def State.takeEvent (s : State) (e : Event) (effect : State → State) : State :=
  if s.canTake e then effect (s.undue e) else s

end Sys2Proof.Machine
end

