-- ==== Sys2Proof/Machine/Coding.lean ====
section
/-!
DEFINITION. Machine/Coding.lean: the sample coder (R97 to R106). Every operation computes on exact integers and narrows once at its end.
-/
namespace Sys2Proof.Machine

/-! ### Samples and level arithmetic -/

/-- clamp(v, lo, hi) (00 Conventions). -/
def clampInt (v lo hi : Int) : Int := if v < lo then lo else if hi < v then hi else v

/-- clamp on natural numbers. -/
def clampNat (v lo hi : Nat) : Nat := if v < lo then lo else if hi < v then hi else v

/-- sat(v): the sample nearest an exact integer (R97). -/
def sat (v : Int) : Sample := BitVec.ofInt 14 (clampInt v (-8192) 8191)

/-- A gain of g sixteenths, truncated toward zero and saturated (R104). -/
def gainSample (g : Nat) (x : Sample) : Sample := sat ((x.toInt * (g : Int)).tdiv 16)

/-- A gain applied to every sample of a frame (R104). -/
def applyGain (g : Nat) (f : Frame) : Frame := f.map (gainSample g)

/-- Concealment scaling by k quarters (R105). -/
def scaleQuarters (k : Nat) (f : Frame) : Frame := f.map fun x => sat ((x.toInt * (k : Int)).tdiv 4)

/-- The sum of the magnitudes of a frame. -/
def magnitudeSum (f : Frame) : Nat := f.foldl (fun acc x => acc + x.toInt.natAbs) 0

/-- The energy figure E (R106). -/
def energy (f : Frame) : Nat := magnitudeSum f / 80

/-! ### µ-law (R98, R99) -/

/-- The µ-law code of a sample (R98). -/
def encodeMu (x : Sample) : Byte :=
  let m := min x.toInt.natAbs 8158 + 33
  let seg := m.log2 - 5
  let mant := m / 2 ^ (seg + 1) % 16
  byteOf (16 * seg + mant) ^^^ (if 0 ≤ x.toInt then 0xFF else 0x7F)

/-- The sample of a µ-law code (R99). -/
def decodeMu (c : Byte) : Sample :=
  let u := (c ^^^ 0xFF).toNat
  let seg := u / 16 % 8
  let mant := u % 16
  let m : Int := ((2 * mant + 33) * 2 ^ seg : Nat) - 33
  BitVec.ofInt 14 (if 128 ≤ u then -m else m)

/-! ### A-law (R100, R101) -/

/-- The A-law code of a sample (R100). -/
def encodeA (x : Sample) : Byte :=
  let y := x.toInt / 2
  let m := min y.natAbs 4095
  let seg := if m < 32 then 0 else m.log2 - 4
  let mant := if m < 32 then m / 2 else m / 2 ^ seg % 16
  byteOf ((if 0 ≤ y then 128 else 0) + 16 * seg + mant) ^^^ 0x55

/-- The sample of an A-law code (R101). -/
def decodeA (c : Byte) : Sample :=
  let u := (c ^^^ 0x55).toNat
  let seg := u / 16 % 8
  let mant := u % 16
  let m : Int := if seg = 0 then ((2 * mant + 1 : Nat) : Int) else (((2 * mant + 33) * 2 ^ (seg - 1) : Nat) : Int)
  BitVec.ofInt 14 (if 128 ≤ u then 2 * m else -(2 * m))

/-! ### Linear 16 (R102) -/

/-- The 16-bit value of a sample: four times it (R102). -/
def encodeLin (x : Sample) : Half := BitVec.ofInt 16 (4 * x.toInt)

/-- The sample of a 16-bit value: a quarter of it, rounded down (R102). -/
def decodeLin (v : Half) : Sample := BitVec.ofInt 14 (v.toInt / 4)

/-! ### Blocks (R28, R103) -/

/-- The bytes of a block (R103). -/
def Coding.blockSize : Coding → Nat
  | .mu => 80
  | .a => 80
  | .lin16 => 160

/-- The blocks a payload can hold (R28). -/
def Coding.capacity : Coding → Nat
  | .mu => 6
  | .a => 6
  | .lin16 => 3

/-- The codes of R188. -/
def Coding.code : Coding → Byte
  | .mu => 0x01
  | .a => 0x02
  | .lin16 => 0x03

/-- The coding of a code byte; other values are invalid (R188). -/
def codingOf (b : Byte) : Option Coding :=
  if b = 0x01 then some .mu else if b = 0x02 then some .a else if b = 0x03 then some .lin16 else none

/-- The offset of a block within its cell (R28, R89). -/
def blockOffset (c : Coding) (block : Nat) : Nat := 32 + c.blockSize * block

/-- The bytes of a coded frame (R103). -/
def encodeBlock (c : Coding) (f : Frame) : List Byte :=
  match c with
  | .mu => f.map encodeMu
  | .a => f.map encodeA
  | .lin16 => f.flatMap fun x => bytes16 (encodeLin x)

/-- The sample of number i of a block at an offset of a cell (R103). -/
def State.decodeSample (s : State) (n : CellNo) (c : Coding) (off i : Nat) : Sample :=
  match c with
  | .mu => decodeMu (s.cellByte n (off + i))
  | .a => decodeA (s.cellByte n (off + i))
  | .lin16 => decodeLin (s.cellHalf n (off + 2 * i))

/-- The 80 samples of a block of a cell (R103). -/
def State.decodeBlock (s : State) (n : CellNo) (c : Coding) (block : Nat) : Frame :=
  (List.range 80).map (s.decodeSample n c (blockOffset c block))

/-- A frame coded into a block of a cell (R103). -/
def State.putBlock (s : State) (n : CellNo) (c : Coding) (block : Nat) (f : Frame) : State :=
  s.putCell n (blockOffset c block) (encodeBlock c f)

end Sys2Proof.Machine
end

