-- ==== Sys2Proof/Machine/Operands.lean ====
section
/-!
DEFINITION. Machine/Operands.lean: the formats the part reads from exchange memory (R28, R130, R154, R172, R188, R189, R191).
-/
namespace Sys2Proof.Machine

/-! ### Parcel headers (R28, R188) -/

/-- The fields of a parcel header as bytes hold them. `coding` is none for an invalid code. -/
structure ParcelHeader where
  channel : Nat
  coding : Option Coding
  spurt : Bool
  ts : Word
  primary : Nat
  redundant : Nat
  lags : List Nat
deriving DecidableEq, Repr

/-- The header of a posted parcel; only the lags 0..Q−1 are read (R188). -/
def State.parcelHeader (s : State) (n : CellNo) : ParcelHeader :=
  let q := (s.cellByte n 10).toNat
  { channel := (s.cellByte n 0).toNat
    coding := codingOf (s.cellByte n 1)
    spurt := (s.cellByte n 2).getLsbD 0
    ts := s.cellWord n 4
    primary := (s.cellByte n 3).toNat
    redundant := q
    lags := (List.range (min q 5)).map fun j => (s.cellByte n (11 + j)).toNat }

/-- Refusal reason codes (R188). -/
def reasonBadChannel : Byte := 0x01
def reasonClosed : Byte := 0x02
def reasonBadCoding : Byte := 0x03
def reasonBadCount : Byte := 0x04
def reasonBadLag : Byte := 0x05
def reasonBadSheet : Byte := 0x08

/-- A block of a parcel (R28). -/
structure Block where
  index : Nat
  origin : Origin
  ts : Word
deriving DecidableEq, Repr

/-- The blocks of a parcel in payload order, with their expanded timestamps (R28). -/
def ParcelHeader.blocks (h : ParcelHeader) : List Block :=
  (List.range h.primary).map (fun k => { index := k, origin := .primary, ts := h.ts + BitVec.ofNat 32 (80 * k) }) ++
  (List.range h.redundant).map fun j =>
    { index := h.primary + j, origin := .redundant, ts := h.ts - BitVec.ofNat 32 (80 * h.lags.getD j 0) }

/-! ### Cadence and tone records (R130, R154, R191) -/

/-- A cadence record as its bytes hold it (R191). -/
structure CadenceRecord where
  once : Bool
  offFirst : Bool
  durations : List Nat
deriving DecidableEq, Repr

/-- Cadence record k (R130, R191). -/
def State.cadenceRecord (s : State) (k : Nat) : CadenceRecord :=
  let base := 0x100 + 32 * k
  { once := (s.byteAt base).getLsbD 0
    offFirst := (s.byteAt base).getLsbD 1
    durations := (List.range 8).map fun i => (s.halfAt (base + 16 + 2 * i)).toNat }

/-- A record whose eight durations are all 0 (R130). -/
def CadenceRecord.isEmpty (r : CadenceRecord) : Bool := r.durations.all (· == 0)

/-- A tone record as its bytes hold it (R191). -/
structure ToneRecord where
  f1 : Nat
  f2 : Nat
  a1 : Nat
  a2 : Nat
  cadence : Nat
deriving DecidableEq, Repr

/-- Tone record k (R154, R191). -/
def State.toneRecord (s : State) (k : Nat) : ToneRecord :=
  let base := 0x300 + 16 * k
  { f1 := (s.halfAt base).toNat
    f2 := (s.halfAt (base + 2)).toNat
    a1 := (s.halfAt (base + 4)).toNat
    a2 := (s.halfAt (base + 6)).toNat
    cadence := (s.byteAt (base + 8)).toNat }

/-- Whether a frequency or an amplitude of a record lies beyond its limit (R154). -/
def ToneRecord.limited (r : ToneRecord) : Bool :=
  decide (3999 < r.f1) || decide (3999 < r.f2) || decide (8191 < r.a1) || decide (8191 < r.a2)

/-! ### Order sheets (R172, R189) -/

/-- Byte i of entry k of a sheet (R172). -/
def State.entryByte (s : State) (n : CellNo) (k i : Nat) : Byte := s.cellByte n (32 + 16 * k + i)

/-- The half-word at byte i of entry k of a sheet. -/
def State.entryHalf (s : State) (n : CellNo) (k i : Nat) : Half := s.cellHalf n (32 + 16 * k + i)

/-- R24: an area of `len` bytes at an offset lies wholly in the annex of a sheet of `count` entries. -/
def inAnnex (count off len : Nat) : Bool := decide (32 + 16 * count ≤ off) && decide (off + len ≤ 512)

/-- The answers of R174. -/
inductive Answer where
  | done
  | adjusted
  | started
  | busy
  | badTarget
  | badParam
  | emptyCadence
  | notOpen
  | alreadyOpen
  | unknown
deriving DecidableEq, Repr

/-- The answer codes of R189. -/
def Answer.code : Answer → Byte
  | .done => 0x01
  | .adjusted => 0x02
  | .started => 0x03
  | .busy => 0x10
  | .badTarget => 0x11
  | .badParam => 0x12
  | .emptyCadence => 0x13
  | .notOpen => 0x14
  | .alreadyOpen => 0x15
  | .unknown => 0x1F

/-- DONE, or ADJUSTED when a value was changed in range. -/
def answerChanged (changed : Bool) : Answer := if changed then .adjusted else .done

/-- A target number as a line, or none above 3. -/
def lineOf (t : Nat) : Option LineNo := if h : t < 4 then some ⟨t, h⟩ else none

end Sys2Proof.Machine
end

