-- ==== Sys2Proof/Machine/Cadence.lean ====
section
/-!
DEFINITION. Machine/Cadence.lean: the cadence engine, used by ring runs and tone runs alike (R130 to R132).
-/
namespace Sys2Proof.Machine

/-- Whether the half at a position of the play order is an on-half (R130). -/
def CadenceRun.isOn (r : CadenceRun) (pos : Nat) : Bool := (pos % 2 == 0) != r.offFirst

/-- The duration of the half at a position of the play order: durations stand as on 0, off 0, on 1, … (R130, R191). -/
def CadenceRun.duration (r : CadenceRun) (pos : Nat) : Nat :=
  r.durations.getD (2 * (pos / 2) + if r.isOn pos then 0 else 1) 0

/-- The first position from `pos` on whose half is not of duration 0, among `k` positions (R132). -/
def CadenceRun.searchFrom (r : CadenceRun) : Nat → Nat → Option Nat
  | 0, _ => none
  | k + 1, pos => if r.duration pos ≠ 0 then some pos else r.searchFrom k (pos + 1)

/-- The run with the half at a position made current, its duration the segment count. -/
def CadenceRun.moveTo (r : CadenceRun) (pos : Nat) : CadenceRun := { r with pos := pos, count := r.duration pos }

/-- R132: the next half whose duration is not 0: after the position, or in REPEAT from the first half; none when a ONCE run ends. -/
def CadenceRun.nextHalf (r : CadenceRun) : Option Nat :=
  match r.searchFrom (7 - r.pos) (r.pos + 1) with
  | some pos => some pos
  | none => if r.once then none else r.searchFrom 8 0

/-- R131: the run of a record, at its first half whose duration is not 0; none for an empty record (R130). -/
def CadenceRecord.start (c : CadenceRecord) : Option CadenceRun :=
  let r : CadenceRun := { once := c.once, offFirst := c.offFirst, durations := c.durations, pos := 0, count := 0 }
  (r.searchFrom 8 0).map r.moveTo

/-- Whether the current half of a run is an on-half. -/
def CadenceRun.onHalf (r : CadenceRun) : Bool := r.isOn r.pos

end Sys2Proof.Machine
end

