-- ==== Sys2Proof/Machine/Marks.lean ====
section
/-!
DEFINITION. Machine/Marks.lean: the mark writer (R175 to R180, R190).
-/
namespace Sys2Proof.Machine

/-- The kind codes of R190. -/
def MarkKind.code : MarkKind → Byte
  | .seized => 0x01
  | .cleared => 0x02
  | .flash => 0x03
  | .digitPulse => 0x04
  | .dialFault => 0x05
  | .answered => 0x10
  | .ringDone => 0x11
  | .identSent => 0x12
  | .identAborted => 0x13
  | .toneDone => 0x20
  | .digitOn => 0x21
  | .digitOff => 0x22
  | .answerTone => 0x23
  | .callingTone => 0x24
  | .modeSteady => 0x30
  | .modeSpeech => 0x31
  | .resync => 0x32
  | .starved => 0x33
  | .stampClash => 0x40
  | .marksLost => 0x41

/-- The 16-byte record of a mark (R190). -/
def Mark.record (m : Mark) : List Byte :=
  [m.kind.code, m.line] ++ bytes16 m.detail16 ++ bytes32 m.time ++ bytes32 m.detail32 ++ [0, 0, 0, 0]

/-- R179: M goes into header byte 0 and 00h into bytes 1..31, the cell is handed over as OUT_MARKS, and no sheet is open. -/
def State.closeSheet (s : State) : State :=
  match s.marks.sheet with
  | none => s
  | some c =>
    let s := s.putCell c 0 (byteOf s.marks.count :: List.replicate 31 0)
    let s := s.handOver c stampOutMarks
    { s with marks := { s.marks with sheet := none, count := 0 } }

/-- R176: a mark is written as record M of the open sheet, and the 28th mark closes the sheet. -/
def State.writeMark (s : State) (m : Mark) : State :=
  match s.marks.sheet with
  | none => s
  | some c =>
    let s := s.putCell c (32 + 16 * s.marks.count) m.record
    let s := { s with marks := { s.marks with count := s.marks.count + 1 } }
    if 28 ≤ s.marks.count then s.closeSheet else s

/-- The writer's own MARKS_LOST mark (R180). -/
def State.marksLost (s : State) : Mark :=
  { kind := .marksLost, line := 0xFF, detail16 := BitVec.ofNat 16 s.marks.lost, time := s.now, detail32 := 0 }

/-- R178: a sheet just claimed receives the MARKS_LOST mark, if marks were lost, and then the queued marks, oldest first. -/
def State.fillSheet (s : State) : State :=
  let s := if 0 < s.marks.lost then
      let s := s.writeMark s.marksLost
      { s with marks := { s.marks with lost := 0 } }
    else s
  let queued := s.marks.queue
  queued.foldl State.writeMark { s with marks := { s.marks with queue := [] } }

/-- A mark-sheet claim; when it succeeds the cell is opened as the sheet with M at 0 (R177). -/
def State.openSheet (s : State) : Option State :=
  match s.claimMarks with
  | none => none
  | some (c, s) => some { s with marks := { s.marks with sheet := some c, count := 0 } }

/-- R176, R177, R178: a mark given to the mark writer. -/
def State.giveMark (s : State) (m : Mark) : State :=
  match s.marks.sheet with
  | some _ => s.writeMark m
  | none =>
    match s.openSheet with
    | some s => s.fillSheet.writeMark m
    | none =>
      if s.marks.queue.length < 16 then { s with marks := { s.marks with queue := s.marks.queue ++ [m] } }
      else { s with marks := { s.marks with lost := min 65535 (s.marks.lost + 1) } }

/-- A mark of a line, given at the present time. -/
def State.giveLineMark (s : State) (kind : MarkKind) (n : LineNo) (detail16 : Half) (detail32 : Word) : State :=
  s.giveMark { kind := kind, line := lineByte n, detail16 := detail16, time := s.now, detail32 := detail32 }

/-- R179: the writer closes any open sheet, then retries a claim if its overflow queue holds marks. -/
def State.markBoundary (s : State) : State :=
  let s := s.closeSheet
  if s.marks.queue.isEmpty then s
  else
    match s.openSheet with
    | some s => s.fillSheet
    | none => s

/-- The mark writer's frame boundary event, when it is due (R179). -/
def State.markEvent (s : State) : State := s.takeEvent .markWriter State.markBoundary

/-- MARK_WRITER_BOUNDARY (R179). -/
def execMarkWriterBoundary (s : State) : Host.Outcome State Fault Refusal := .next s.markEvent

end Sys2Proof.Machine
end

