-- ==== Sys2Proof/Machine/Synthesis.lean ====
section
/-!
DEFINITION. Machine/Synthesis.lean: the sine of a 16-bit phase and the samples made from it (R149, R151, R159).
R151 and R159 round a·sin(2π·phase / 65,536) to the nearest integer. The sine is computed here in 64-bit fixed point by its Taylor
series; its error is below 2⁻⁶⁰, and no a·sin with a in 1..8191 and a 16-bit phase lies within 2⁻²⁸ of a half-integer, so the rounded
values are those of the real sine (log 17).
-/
namespace Sys2Proof.Machine

/-- 2⁶⁴, the unit of the fixed point. -/
def sineUnit : Nat := 18446744073709551616

/-- π/2 in 64-bit fixed point, rounded down. -/
def halfPiFixed : Nat := 28976077832308491369

/-- The Taylor series of the sine from its term `t` on, k terms more, `i` the index of `t`; `x2` is x² in fixed point. -/
def sineSeries (x2 : Nat) : Nat → Nat → Nat → Int
  | 0, _, _ => 0
  | k + 1, i, t => (t : Int) - sineSeries x2 k (i + 1) (t * x2 / sineUnit / ((2 * i + 2) * (2 * i + 3)))

/-- The sine of an angle of at most a quarter turn, in fixed point. -/
def sineQuarter (x : Nat) : Nat := (sineSeries (x * x / sineUnit) 13 0 x).toNat

/-- The sine of a phase that counts `quarter` to a quarter turn, in fixed point. -/
def sineFixed (quarter phase : Nat) : Int :=
  let q := phase % quarter
  let turn := phase / quarter % 4
  let mag := sineQuarter (halfPiFixed * (if turn % 2 = 0 then q else quarter - q) / quarter)
  if turn < 2 then (mag : Int) else -(mag : Int)

/-- round(a·sin(2π·phase / 65,536)), in −a..a (R151, R159). -/
def sineSample (a : Nat) (phase : Half) : Int :=
  let v := sineFixed 16384 phase.toNat
  let r := min a ((2 * a * v.natAbs + sineUnit) / (2 * sineUnit))
  if 0 ≤ v then (r : Int) else -(r : Int)

/-- The increment of a frequency: round(f·65,536 / 8,000), halves up (R159). -/
def toneIncrement (f : Nat) : Nat := (f * 65536 + 4000) / 8000

/-- A tone component's value: 0 when it is absent (R154, R159). -/
def toneComponent (f a : Nat) (phase : Half) : Int := if f = 0 || a = 0 then 0 else sineSample a phase

/-- The bits of an identity stream over a buffer of `n` bytes (R149). -/
def streamBits (n : Nat) : Nat := 480 + 10 * n

/-- The cadence ticks that sending takes: D = ceil(bits / 12) (R149). -/
def sendTicks (n : Nat) : Nat := (streamBits n + 11) / 12

/-- Bit k of the identity stream of a buffer, true for a mark (R149): 300 seizure bits starting with 0, 180 marks, then for each byte
a start bit 0, eight data bits from the least significant, and a stop bit 1. Beyond the last bit the stream carries mark. -/
def streamBit (buffer : List Byte) (k : Nat) : Bool :=
  if k < 300 then k % 2 == 1
  else if k < 480 then true
  else if streamBits buffer.length ≤ k then true
  else
    let j := (k - 480) % 10
    if j = 0 then false else if j = 9 then true else (buffer.getD ((k - 480) / 10) 0).getLsbD (j - 1)

/-- The bit that sample period s of the stream carries (R149). -/
def streamBitAt (buffer : List Byte) (s : Nat) : Bool := streamBit buffer (3 * s / 20)

/-- The phase increment of a bit: 9,830 for a mark, 18,022 for a space (R151). -/
def identIncrement (mark : Bool) : Half := if mark then 9830 else 18022

/-- The checksum byte of an identity body (R148). -/
def identChecksum (body : List Byte) : Byte := byteOf ((256 - (body.map BitVec.toNat).sum % 256) % 256)

end Sys2Proof.Machine
end

