-- ==== Sys2Proof/Machine/Ringing.lean ====
section
/-!
DEFINITION. Machine/Ringing.lean: the ring and identity unit (R133 to R153): grants, bursts, ring trip, the end of a run, and identity timing.
-/
namespace Sys2Proof.Machine

/-! ### The ring supply (R138, R139) -/

/-- R138, R139: a port that has taken a grant enters BURST: RINGn goes high, the segment count is the on-half's full duration, the trip
count is 0 and bursts started gains 1, holding at 65,535. -/
def State.startBurst (s : State) (p : LineNo) : State :=
  let r := s.ring.get p
  s.setRing p { r with
    sub := .burst
    run := r.run.map fun c => c.moveTo c.pos
    level := true
    drive := 0
    trip := 0
    bursts := min 65535 (r.bursts + 1) }

/-- One of the two grants set: A if `a`, else B. -/
def State.setGrant (s : State) (a : Bool) (holder : Option LineNo) : State :=
  { s with arb := if a then { s.arb with grantA := holder } else { s.arb with grantB := holder } }

/-- R139: a released grant becomes free, or passes to the head of the wait list, whose port starts its burst; a burst that begins at a
boundary instant lasts its full duration from it, so the port has no tick left at that instant (log 11). -/
def State.passGrant (s : State) (a : Bool) : State :=
  match s.arb.waitList with
  | [] => s.setGrant a none
  | q :: qs => ((({ s with arb := { s.arb with waitList := qs } }).setGrant a (some q)).startBurst q).undue (.tick q)

/-- R139: the grant that a port holds is released; RINGn of the port goes inactive. -/
def State.releaseGrant (s : State) (p : LineNo) : State :=
  let s := s.setRing p { s.ring.get p with level := false }
  if s.arb.grantA = some p then s.passGrant true
  else if s.arb.grantB = some p then s.passGrant false
  else s

/-- R138: the place at which a port joins the wait list: at the end, but ahead of a port with the same wait stamp and a higher number. That
this holds too for a port that asks again at the end of its burst, which R140 puts behind any waiting port, is the model's choice (log 27). -/
def joinWait (stampOf : LineNo → Word) (stamp : Word) (p : LineNo) : List LineNo → List LineNo
  | [] => [p]
  | q :: qs => if stampOf q = stamp ∧ p < q then p :: q :: qs else q :: joinWait stampOf stamp p qs

/-- R138: a port at an on-half asks for a grant. -/
def State.askGrant (s : State) (p : LineNo) : State :=
  if s.arb.grantA = none then (s.setGrant true (some p)).startBurst p
  else if s.arb.grantB = none then (s.setGrant false (some p)).startBurst p
  else
    let r := s.ring.get p
    let stamp := s.clock.boundaries
    let s := s.setRing p { r with sub := .waitGrant, run := r.run.map fun c => c.moveTo c.pos, waitStamp := stamp }
    { s with arb := { s.arb with waitList := joinWait (fun q => (s.ring.get q).waitStamp) stamp p s.arb.waitList } }

/-- R143, R145 step 1: in BURST the grant is released, in WAIT_GRANT the port leaves the wait list. -/
def State.leaveSupply (s : State) (p : LineNo) : State :=
  match (s.ring.get p).sub with
  | .burst => s.releaseGrant p
  | .waitGrant => { s with arb := { s.arb with waitList := s.arb.waitList.filter (· != p) } }
  | _ => s

/-! ### Identity (R148 to R152) -/

/-- The bits of a stream that went out whole after the samples sent; none in PENDING (R152). -/
def Ident.bitsSent (i : Ident) : Nat :=
  if i.status = .sending then min (3 * i.sent / 20) (streamBits i.buffer.length) else 0

/-- R152: identity in PENDING or SENDING is aborted: status NONE, the buffer discarded, and an IDENT_ABORTED mark. -/
def State.abortIdent (s : State) (p : LineNo) (cause : Half) : State :=
  let i := s.ident.get p
  if i.status = .pending ∨ i.status = .sending then
    (s.setIdent p { i with status := .none, buffer := [] }).giveLineMark .identAborted p cause (BitVec.ofNat 32 i.bitsSent)
  else s

/-- R147: at PORT_DOWN identity in PENDING or SENDING ends without an abort and without a mark. -/
def State.dropIdent (s : State) (p : LineNo) : State :=
  let i := s.ident.get p
  if i.status = .pending ∨ i.status = .sending then s.setIdent p { i with status := .none, buffer := [] } else s

/-- R150: the identity step of a cadence tick, in PENDING once the hold has begun, in SENDING and in TAIL. -/
def State.identStep (s : State) (p : LineNo) : State :=
  let i := s.ident.get p
  match i.status with
  | .pending =>
    if i.hold = false then s
    else if i.delay ≤ 1 then
      (s.setIdent p { i with delay := 0, status := .sending, send := sendTicks i.buffer.length, sent := 0, phase := 0 }).setRing p
        { s.ring.get p with sub := .ident }
    else s.setIdent p { i with delay := i.delay - 1 }
  | .sending =>
    if i.send ≤ 1 then
      let s := (s.setIdent p { i with send := 0, status := .tail, tail := 20 }).setRing p { s.ring.get p with sub := .rest }
      s.giveLineMark .identSent p (BitVec.ofNat 16 (i.buffer.length - 1)) (BitVec.ofNat 32 (streamBits i.buffer.length))
    else s.setIdent p { i with send := i.send - 1 }
  | .tail =>
    if i.tail ≤ 1 then s.setIdent p { i with tail := 0, status := .sent, hold := false }
    else s.setIdent p { i with tail := i.tail - 1 }
  | _ => s

/-! ### The end of a ring run (R143, R145, R146) -/

/-- The cadence run and the identity buffer are discarded and the sub-phase becomes none (R143 step 3). -/
def State.endRing (s : State) (p : LineNo) : State :=
  let s := s.setRing p { s.ring.get p with run := none, sub := .none, level := false }
  s.setIdent p { s.ident.get p with buffer := [], hold := false }

/-- The code of a sub-phase in an ANSWERED mark (R190). -/
def SubPhase.code : SubPhase → Half
  | .none => 0
  | .burst => 1
  | .rest => 2
  | .waitGrant => 3
  | .ident => 4

/-- R119: a port enters OFFHOOK. -/
def Port.toOffhook (p : Port) : Port :=
  { p with state := .offhook, filtered := true, differing := 0, breakCount := none, gapCount := none, pulses := 0 }

/-- R143: a ring trip. -/
def State.ringTrip (s : State) (p : LineNo) : State :=
  let sub := (s.ring.get p).sub
  let s := ((s.leaveSupply p).abortIdent p 0).endRing p
  let s := s.setPort p (s.port.get p).toOffhook
  s.giveLineMark .answered p sub.code (BitVec.ofNat 32 (s.ring.get p).bursts)

/-- The code of the identity in a RING_DONE mark: NONE, SENT, or UNSENT when it was ordered and never started (R153, R190). -/
def IdentStatus.doneCode : IdentStatus → Half
  | .none => 0
  | .pending => 2
  | .sending => 2
  | .tail => 1
  | .sent => 1

/-- R146: a ONCE ring run completes. -/
def State.completeRing (s : State) (p : LineNo) : State :=
  let s := s.endRing p
  let s := s.setPort p { s.port.get p with state := .idle }
  s.giveLineMark .ringDone p (s.ident.get p).status.doneCode (BitVec.ofNat 32 (s.ring.get p).bursts)

/-- R145: RING_STOP on a RINGING port. -/
def State.stopRing (s : State) (p : LineNo) : State :=
  let s := ((s.leaveSupply p).abortIdent p 1).endRing p
  s.setPort p { s.port.get p with state := .idle }

/-! ### The cadence in RINGING (R140) -/

/-- The engine's advance of a ring run (R132, R140): an on-half asks for a grant, an off-half gives REST, and the end of a ONCE run
completes it. -/
def State.advanceRing (s : State) (p : LineNo) : State :=
  let r := s.ring.get p
  match r.run with
  | none => s
  | some c =>
    match c.nextHalf with
    | none => s.completeRing p
    | some pos =>
      if c.isOn pos then (s.setRing p { r with run := some (c.moveTo pos) }).askGrant p
      else s.setRing p { r with run := some (c.moveTo pos), sub := .rest }

/-- R150 step 1: at the end of the first burst with identity PENDING the delay count becomes 50 and the identity hold begins; a
following off-half becomes current, else the position stays with a segment count of 0; the sub-phase becomes REST. -/
def State.beginIdentHold (s : State) (p : LineNo) : State :=
  let r := s.ring.get p
  let run := r.run.map fun c =>
    match c.nextHalf with
    | some pos => if c.isOn pos then { c with count := 0 } else c.moveTo pos
    | none => { c with count := 0 }
  (s.setRing p { r with run := run, sub := .rest }).setIdent p { s.ident.get p with delay := 50, hold := true }

/-- R140: the end of a burst: the grant is released, and the engine advances, or the identity hold begins (R150). -/
def State.endBurst (s : State) (p : LineNo) : State :=
  let s := s.releaseGrant p
  let i := s.ident.get p
  if i.status = .pending ∧ i.hold = false then s.beginIdentHold p else s.advanceRing p

/-- A ring run with its segment count replaced. -/
def Ring.withCount (r : Ring) (n : Nat) : Ring := { r with run := r.run.map fun c => { c with count := n } }

/-- The segment count of a ring run. -/
def Ring.segment (r : Ring) : Nat := (r.run.map CadenceRun.count).getD 0

/-- R140: in a rest the segment count falls by 1 if it is above 0, and at 0, with no identity hold, the engine advances. -/
def State.countRest (s : State) (p : LineNo) : State :=
  let n := (s.ring.get p).segment - 1
  let s := s.setRing p ((s.ring.get p).withCount n)
  if n = 0 ∧ (s.ident.get p).hold = false then s.advanceRing p else s

/-- R140: a cadence tick of a ringing port. -/
def State.ringTick (s : State) (p : LineNo) : State :=
  let r := s.ring.get p
  match r.sub with
  | .burst =>
    let s := s.setRing p (r.withCount (r.segment - 1))
    if r.segment ≤ 1 then s.endBurst p else s
  | .rest => (s.identStep p).countRest p
  | .ident => (s.identStep p).countRest p
  | .waitGrant => s
  | .none => s

/-- R141, R142: what the unit does with a scan of a ringing port: six active TRIPn samples in one burst, or a filtered off-hook level
outside a burst, are a ring trip. -/
def State.ringScan (s : State) (p : LineNo) (trip : Bool) : State :=
  let r := s.ring.get p
  match r.sub with
  | .burst =>
    if trip = false then s.setRing p { r with trip := 0 }
    else if 6 ≤ r.trip + 1 then s.ringTrip p
    else s.setRing p { r with trip := r.trip + 1 }
  | .none => s
  | _ => if (s.port.get p).filtered then s.ringTrip p else s

/-- R136: an accepted RING order: the run started, the identity buffered, and the first half begun. -/
def State.startRing (s : State) (p : LineNo) (run : CadenceRun) (freq : Nat) (body : List Byte) : State :=
  let s := s.setPort p { s.port.get p with state := .ringing, breakCount := none, gapCount := none, pulses := 0 }
  let s := s.setRing p { s.ring.get p with run := some run, freq := freq, trip := 0, bursts := 0 }
  let i : Ident := { Ident.reset with
    status := if body.isEmpty then .none else .pending
    buffer := if body.isEmpty then [] else body ++ [identChecksum body] }
  let s := (s.setIdent p i).undue (.tick p)
  if run.onHalf then s.askGrant p else s.setRing p { s.ring.get p with sub := .rest }

/-- Whether the ring drive of a port waits for its toggle: in BURST, the drive count having reached N + 1 (R137). -/
def State.togglesNow (s : State) (p : LineNo) : Bool :=
  (s.ring.get p).sub == .burst && decide ((s.ring.get p).freq + 1 ≤ (s.ring.get p).drive)

/-- R137: in BURST, when the drive count has reached N + 1, RINGn changes level and the count returns to 0. The clock raises the count
at each scan instant (log 16). -/
def State.driveEvent (s : State) (p : LineNo) : State :=
  if s.clock.running && s.togglesNow p then s.setRing p { s.ring.get p with level := !(s.ring.get p).level, drive := 0 } else s

/-- RING_DRIVE_TOGGLE (R137). -/
def execRingDriveToggle (p : LineNo) (s : State) : Host.Outcome State Fault Refusal := .next (s.driveEvent p)

end Sys2Proof.Machine
end

