-- ==== Sys2Proof/Config.lean ====
section
/-!
DEFINITION. Config.lean: what the manual leaves to the part itself.
The only such thing that is fixed for a part is the frame analysis of R162, where the rule leaves it open. It is a constant without a body,
so that nothing proved about the model can rest on a particular analysis (log 6).
-/
namespace Sys2Proof

/-- A component of an analysed frame (R162): `freq` in tenths of a hertz, `amp` the peak amplitude in sample units. -/
structure Component where
  freq : Nat
  amp : Nat
deriving DecidableEq, Repr

/-- A steady sine wave over a frame, in steps far below what R162 measures: `step` is its advance a sample and `phase` its phase at sample 0,
in 2⁻⁶⁴ of a turn; `amp` is its peak amplitude in 2⁻⁴⁸ of a sample unit. -/
structure Wave where
  step : Nat
  amp : Nat
  phase : Nat
deriving DecidableEq, Repr

/-- FREE VALUE (log 6). The waves the part finds in a frame, before they are listed as components in the form R162 states.
R162: the same samples always give the same result, and for a frame that is no sum of steady sine waves any list with the stated properties
may be given; `analyse` in Machine/Analysis.lean holds the choice to what the rule does fix. -/
opaque Config.waves : Frame → List Wave

end Sys2Proof
end

