-- ==== Sys2Proof/Machine/Analysis.lean ====
section
/-!
DEFINITION. Machine/Analysis.lean: the frame analysis and the frame verdicts (R162, R164).
-/
namespace Sys2Proof.Machine

/-- The frame energy E2 (R162). -/
def frameEnergy (f : Frame) : Nat := f.foldl (fun acc x => acc + x.toInt.natAbs * x.toInt.natAbs) 0

/-- A component R162 allows in a list: F in 0..39,999 and A in 16..8191. -/
def componentListed (c : Component) : Bool :=
  decide (c.freq ≤ 39999) && decide (16 ≤ c.amp) && decide (c.amp ≤ 8191)

/-- R162's order: strongest first, equal amplitudes with the lower frequency first. -/
def componentBefore (a b : Component) : Bool :=
  decide (b.amp < a.amp) || (a.amp == b.amp && decide (a.freq ≤ b.freq))

/-- A component put in its place of an ordered list. -/
def insertComponent (c : Component) : List Component → List Component
  | [] => [c]
  | d :: ds => if componentBefore c d then c :: d :: ds else d :: insertComponent c ds

/-- A list in R162's order. -/
def sortComponents : List Component → List Component
  | [] => []
  | c :: cs => insertComponent c (sortComponents cs)

/-- A list brought to the form R162 states: only components it allows, in its order, at most 8. -/
def normaliseComponents (cs : List Component) : List Component :=
  (sortComponents (cs.filter componentListed)).take 8

/-! ### Sums of steady sine waves (R162, log 6) -/

/-- What is measured of a wave: its frequency in tenths of a hertz and its peak amplitude in sample units (R162). That each is the nearest, a
half going up, and so that an amplitude of 15.5 is listed as 16, is the model's choice (log 6). -/
def waveComponent (w : Wave) : Component :=
  { freq := (w.step * 80000 + 2 ^ 63) / 2 ^ 64, amp := (w.amp + 2 ^ 47) / 2 ^ 48 }

/-- A wave within R162's ranges: F in 0..39,999 and A up to 8191. -/
def waveInRange (w : Wave) : Bool :=
  decide ((waveComponent w).freq ≤ 39999) && decide (0 < w.amp) && decide ((waveComponent w).amp ≤ 8191) && decide (w.phase < 2 ^ 64)

/-- A sample unit in the steps of `waveValue`. -/
def waveUnit : Nat := 2 ^ 48 * sineUnit

/-- A wave's value at sample i, `waveUnit` to a sample unit. -/
def waveValue (w : Wave) (i : Nat) : Int := (w.amp : Int) * sineFixed (2 ^ 62) (w.phase + i * w.step)

/-- A wave that measures 0 Hz is a constant of the frame, and as strong as its samples: they reach the amplitude measured (log 6). -/
def waveShows (w : Wave) : Bool :=
  (waveComponent w).freq != 0 ||
    (List.range 80).any fun i => (2 * (waveValue w i).natAbs + waveUnit) / (2 * waveUnit) == (waveComponent w).amp

/-- Two waves at least 100 Hz apart: their advances a sample differ by an 80th of a turn or more. -/
def wavesApart (a b : Wave) : Bool := decide (2 ^ 64 ≤ 80 * ((a.step : Int) - (b.step : Int)).natAbs)

/-- Whether waves are each in range and shown, any two at least 100 Hz apart (R162). A wave has three unknowns, so the 80 samples of a frame
can fix at most 26 (log 6). -/
def steadyWaves (ws : List Wave) : Bool :=
  decide (ws.length ≤ 26) && ws.all waveInRange && ws.all waveShows && decide (ws.Pairwise fun a b => wavesApart a b = true)

/-- Whether a wave is one the synthesis makes (R154, R159): the increment of a whole number of hertz, a whole amplitude, a 16-bit phase. -/
def synthesisWave (w : Wave) : Bool :=
  let hz := (w.step / 2 ^ 48 * 8000 + 32768) / 65536
  decide (0 < hz) && w.step == toneIncrement hz * 2 ^ 48 && w.amp % 2 ^ 48 == 0 && w.phase % 2 ^ 48 == 0

/-- Two components whose frequencies in hertz differ by 100 or more: their increments differ by at least 819 (R159). -/
def tonesApart (a b : Wave) : Bool := decide (819 * 2 ^ 48 ≤ ((a.step : Int) - (b.step : Int)).natAbs)

/-- Whether waves are the components of a tone of the synthesis, at least 100 Hz apart (R154, R162). -/
def toneWaves (ws : List Wave) : Bool :=
  decide (ws.length ≤ 2) && ws.all waveInRange && ws.all synthesisWave && decide (ws.Pairwise fun a b => tonesApart a b = true)

/-- A component of a tone of the synthesis at sample i, rounded (R159). -/
def toneValue (w : Wave) (i : Nat) : Int := sineSample (w.amp / 2 ^ 48) (BitVec.ofNat 16 ((w.phase + i * w.step) / 2 ^ 48))

/-- How waves make a frame (log 6): as the rounded components of a tone of the synthesis or as exact waves, and delivered as they are or
decoded from a block of a coding (R69, R103). -/
structure SumKind where
  tone : Bool
  coding : Option Coding
deriving DecidableEq, Repr

/-- The kinds, in the order in which a frame is taken for one of them. -/
def sumKinds : List SumKind :=
  [none, some .lin16, some .mu, some .a].flatMap fun c => [{ tone := true, coding := c }, { tone := false, coding := c }]

/-- The sum of waves at sample i, `waveUnit` to a sample unit. -/
def waveSum (tone : Bool) (ws : List Wave) (i : Nat) : Int :=
  if tone then (waveUnit : Int) * (ws.map fun w => toneValue w i).sum else (ws.map fun w => waveValue w i).sum

/-- The integer nearest to k times a value, halves away from zero. -/
def nearestOf (k : Nat) (value : Int) : Int := value.sign * ((2 * k * value.natAbs + waveUnit) / (2 * waveUnit) : Nat)

/-- The sample that a value gives: the nearest, saturated (R97), and where it came in a block, that sample coded and decoded (R98 to R101),
or the nearest 16-bit value decoded (R102). -/
def heard (coding : Option Coding) (value : Int) : Sample :=
  match coding with
  | none => sat (nearestOf 1 value)
  | some .mu => decodeMu (encodeMu (sat (nearestOf 1 value)))
  | some .a => decodeA (encodeA (sat (nearestOf 1 value)))
  | some .lin16 => decodeLin (BitVec.ofInt 16 (clampInt (nearestOf 4 value) (-32768) 32767))

/-- The frame that waves make in one of the kinds. -/
def frameOf (kind : SumKind) (ws : List Wave) : Frame := (List.range 80).map fun i => heard kind.coding (waveSum kind.tone ws i)

/-- Whether a frame is the sum of given steady sine waves in one of the kinds. -/
def sumOf (ws : List Wave) (f : Frame) (kind : SumKind) : Bool :=
  (if kind.tone then toneWaves ws else steadyWaves ws) && f == frameOf kind ws

/-- Whether a frame is a sum of given steady sine waves (R162). -/
def steadySum (ws : List Wave) (f : Frame) : Bool := sumKinds.any (sumOf ws f)

/-- The order in which a frame is taken for a sum: of fewer waves first, and of as many by its kind (log 6). -/
def sumRank (ws : List Wave) (f : Frame) : Nat := 8 * ws.length + sumKinds.findIdx (sumOf ws f)

/-- How many waves there are in range: 64 bits of step, 64 of phase and 61 of amplitude. -/
def waveCodes : Nat := 2 ^ 189

/-- The wave of a code. -/
def waveOfCode (c : Nat) : Wave := { step := c % 2 ^ 64, phase := c / 2 ^ 64 % 2 ^ 64, amp := c / 2 ^ 128 % 2 ^ 61 }

/-- The k waves of a code of several, one digit for each. -/
def wavesOfCode : Nat → Nat → List Wave
  | 0, _ => []
  | k + 1, c => waveOfCode (c % waveCodes) :: wavesOfCode k (c / waveCodes)

/-- The smallest number below a bound that has a property. -/
def findBelow (p : Nat → Bool) : Nat → Option Nat
  | 0 => none
  | n + 1 => (findBelow p n).or (if p n then some n else none)

/-- Waves of rank r whose sum a frame is, if there are any: the search runs over every list of r / 8 waves. -/
def searchWaves (f : Frame) (r : Nat) : Option (List Wave) :=
  (findBelow (fun c => steadySum (wavesOfCode (r / 8) c) f && sumRank (wavesOfCode (r / 8) c) f == r) (waveCodes ^ (r / 8))).map
    (wavesOfCode (r / 8))

/-- The waves of the first rank whose sum a frame is, if it is a sum of steady waves. -/
def fewestWaves (f : Frame) : Option (List Wave) := (List.range 216).findSome? (searchWaves f)

/-- Whether a frame is a sum of given steady waves and of none of an earlier rank: a wave that adds nothing to the samples is no wave of the
frame (log 6). -/
def leastSum (ws : List Wave) (f : Frame) : Bool :=
  steadySum ws f && (List.range (sumRank ws f)).all fun r => (searchWaves f r).isNone

/-- The waves the part takes a frame for: its own choice where the frame is a sum of those and of none of an earlier rank, or where it is no
sum of steady waves at all; else the waves of the first rank it is a sum of (R162, log 6). -/
def wavesFound (f : Frame) : List Wave :=
  if leastSum (Config.waves f) f then Config.waves f else (fewestWaves f).getD (Config.waves f)

/-- The component list of a frame (R162, log 6). Silence yields no component; a sum of steady sine waves exactly those waves; any other
frame the part's fixed, unstated choice in R162's form. -/
def analyse (f : Frame) : List Component :=
  if frameEnergy f = 0 then [] else normaliseComponents ((wavesFound f).map waveComponent)

/-- A verdict (R164). -/
inductive FrameVerdict where
  | noVerdict
  | digit (d : Nat)
  | answerTone
  | callingTone
deriving DecidableEq, Repr

/-- 20·|F − 10·f| ≤ k·f: within 1.5% of f for k = 3, within 3.5% for k = 7 (R164). -/
def withinBand (k f measured : Nat) : Bool :=
  decide (20 * ((measured : Int) - 10 * (f : Int)).natAbs ≤ k * f)

/-- The low-group frequencies of R164's table, in row order. -/
def lowGroup : List Nat := [697, 770, 852, 941]

/-- The high-group frequencies of R164's table, in column order. -/
def highGroup : List Nat := [1209, 1336, 1477, 1633]

/-- The place in a group of the frequency that a measured one lies within 3.5% of (R164). -/
def groupIndex (group : List Nat) (measured : Nat) : Option Nat := group.findIdx? fun f => withinBand 7 f measured

/-- The digit codes of R164's table, by row: 0..9, 10 for *, 11 for #, 12..15 for A..D. -/
def digitTable : List (List Nat) := [[1, 2, 3, 12], [4, 5, 6, 13], [7, 8, 9, 14], [10, 0, 11, 15]]

/-- The digit of a low and a high measured frequency, if each lies within 3.5% and at least one within 1.5% (R164 test 1). -/
def digitOfPair (low high : Nat) : Option Nat :=
  match groupIndex lowGroup low, groupIndex highGroup high with
  | some i, some j =>
    if withinBand 3 (lowGroup.getD i 0) low || withinBand 3 (highGroup.getD j 0) high then
      some ((digitTable.getD i []).getD j 0)
    else none
  | _, _ => none

/-- Test 1 of R164. -/
def digitTest (cs : List Component) : Option Nat :=
  match cs with
  | strong :: weak :: rest =>
    if 256 ≤ strong.amp && 256 ≤ weak.amp && 2 * strong.amp ≤ 5 * weak.amp && rest.all (fun c => 2 * c.amp ≤ weak.amp) then
      match digitOfPair strong.freq weak.freq with
      | some d => some d
      | none => digitOfPair weak.freq strong.freq
    else none
  | _ => none

/-- Tests 2 and 3 of R164: the strongest component within `band` tenths of a hertz of `centre`, A ≥ 128, and at least 80% of the energy. -/
def toneTest (centre band : Nat) (cs : List Component) (e2 : Nat) : Bool :=
  match cs with
  | [] => false
  | c :: _ =>
    decide (((c.freq : Int) - (centre : Int)).natAbs ≤ band) && decide (128 ≤ c.amp) && decide (e2 ≤ 50 * (c.amp * c.amp))

/-- The tone verdict of an analysis, by tests 2 and 3 of R164 (the far verdict, R165). -/
def toneVerdict (cs : List Component) (e2 : Nat) : FrameVerdict :=
  if toneTest 21000 150 cs e2 then .answerTone else if toneTest 11000 380 cs e2 then .callingTone else .noVerdict

/-- The verdict of an analysis, by the three tests of R164 in order. -/
def classifyAnalysis (cs : List Component) (e2 : Nat) : FrameVerdict :=
  match digitTest cs with
  | some d => .digit d
  | none => toneVerdict cs e2

/-- The line verdict of a frame (R163, R164). -/
def lineVerdictOf (f : Frame) : FrameVerdict := classifyAnalysis (analyse f) (frameEnergy f)

/-- The far verdict of a frame (R165). -/
def farVerdictOf (f : Frame) : FrameVerdict := toneVerdict (analyse f) (frameEnergy f)

end Sys2Proof.Machine
end

