-- ==== Sys2Proof/Machine/Tones.lean ====
section
/-!
DEFINITION. Machine/Tones.lean: the tone and verdict unit (R154 to R171): tone contexts, the digit debounce, the tone runs and the verdict events.
-/
namespace Sys2Proof.Machine

/-! ### Tone contexts (R155 to R161) -/

/-- R158: a tone ended without a mark: no cadence run, status NONE, half OFF. -/
def Tone.ended (t : Tone) : Tone := { t with run := none, running := false, half := false }

/-- R158, R161: a port's tone ended without a mark. -/
def State.endTone (s : State) (p : LineNo) : State := s.setTone p (s.tone.get p).ended

/-- R157: an accepted TONE: components copied with their limits, the run started at its first half, phases 0. -/
def State.startTone (s : State) (p : LineNo) (index cadence : Nat) (r : ToneRecord) (run : CadenceRun) : State :=
  let f1 := min r.f1 3999
  let f2 := min r.f2 3999
  (s.setTone p
    { running := true, index := index, cadence := cadence, f1 := f1, a1 := min r.a1 8191, f2 := f2, a2 := min r.a2 8191,
      inc1 := toneIncrement f1, inc2 := toneIncrement f2, ph1 := 0, ph2 := 0, run := some run, half := run.onHalf }).undue (.tick p)

/-- R160: a new half made current; an on-half begins at phase 0. -/
def Tone.toHalf (t : Tone) (run : CadenceRun) : Tone :=
  if run.onHalf then { t with run := some run, half := true, ph1 := 0, ph2 := 0 } else { t with run := some run, half := false }

/-- R160, R161: a cadence tick of a port's tone. -/
def State.toneTick (s : State) (p : LineNo) : State :=
  let t := s.tone.get p
  match t.run with
  | none => s
  | some c =>
    if 1 < c.count then s.setTone p { t with run := some { c with count := c.count - 1 } }
    else
      match c.nextHalf with
      | some pos => s.setTone p (t.toHalf (c.moveTo pos))
      | none =>
        (s.endTone p).giveLineMark .toneDone p (BitVec.ofNat 16 t.index) (BitVec.ofNat 32 t.cadence)

/-- The sample of a port's tone (R159): the saturated sum of its components in an on-half, 0 in an off-half. -/
def Tone.sample (t : Tone) : Sample :=
  if t.half then sat (toneComponent t.f1 t.a1 t.ph1 + toneComponent t.f2 t.a2 t.ph2) else 0

/-- R159: the phases step once in each sample period of a running tone's on-half. -/
def Tone.step (t : Tone) : Tone :=
  if t.running && t.half then
    { t with ph1 := t.ph1 + BitVec.ofNat 16 t.inc1, ph2 := t.ph2 + BitVec.ofNat 16 t.inc2 }
  else t

/-! ### Digit debounce (R167) -/

/-- A verdict mark of a port, with SC at the boundary to which its frame belongs (R170). -/
def State.giveVerdictMark (s : State) (kind : MarkKind) (p : LineNo) (time : Word) (detail16 : Half) (detail32 : Word) : State :=
  s.giveMark { kind := kind, line := lineByte p, detail16 := detail16, time := time, detail32 := detail32 }

/-- R167 step 1: the candidate and its run. -/
def Verdict.withCandidate (v : Verdict) (fv : FrameVerdict) : Verdict :=
  match fv with
  | .digit d => { v with candidate := some d, candRun := if v.candidate = some d then min 4 (v.candRun + 1) else 1 }
  | _ => { v with candidate := none, candRun := 0 }

/-- R167 steps 2 and 3 for a digit that is on: the on count gains 1, and the off run follows the verdict. -/
def Verdict.countOn (v : Verdict) (fv : FrameVerdict) (d : Nat) : Verdict :=
  { v with onCount := min 65535 (v.onCount + 1), offRun := if fv = .digit d then 0 else v.offRun + 1 }

/-- R167 step 3: a digit on with an off run of 4 goes off and gives DIGIT_OFF with its on-duration. -/
def State.digitOffStep (s : State) (p : LineNo) (time : Word) : State :=
  let v := s.verdict.get p
  match v.digitOn with
  | none => s
  | some d =>
    if 4 ≤ v.offRun then
      (s.setVerdict p { v with digitOn := none, offRun := 0, onCount := 0 }).giveVerdictMark .digitOff p time
        (BitVec.ofNat 16 d) (BitVec.ofNat 32 (v.onCount - 4))
    else s

/-- R167 step 4: with no digit on and a candidate run of 4, the candidate goes on and gives DIGIT_ON. -/
def State.digitOnStep (s : State) (p : LineNo) (time : Word) : State :=
  let v := s.verdict.get p
  match v.digitOn, v.candidate with
  | none, some d =>
    if v.candRun = 4 then
      (s.setVerdict p { v with digitOn := some d, onCount := 4, offRun := 0 }).giveVerdictMark .digitOn p time (BitVec.ofNat 16 d) 0
    else s
  | _, _ => s

/-- R167: the debounce of one line verdict. -/
def State.debounce (s : State) (p : LineNo) (time : Word) (fv : FrameVerdict) : State :=
  let v := (s.verdict.get p).withCandidate fv
  let v := match v.digitOn with
    | none => v
    | some d => v.countOn fv d
  ((s.setVerdict p v).digitOffStep p time).digitOnStep p time

/-! ### Tone runs (R168) -/

/-- The four tone runs of a port (R168). -/
inductive RunKind where
  | lineAnswer
  | lineCalling
  | farAnswer
  | farCalling
deriving DecidableEq, Repr

/-- The verdict that a run counts. -/
def RunKind.counts : RunKind → FrameVerdict
  | .lineAnswer => .answerTone
  | .lineCalling => .callingTone
  | .farAnswer => .answerTone
  | .farCalling => .callingTone

/-- The mark that a run gives (R168). -/
def RunKind.mark : RunKind → MarkKind
  | .lineAnswer => .answerTone
  | .lineCalling => .callingTone
  | .farAnswer => .answerTone
  | .farCalling => .callingTone

/-- The cause of the trigger that a run passes (R168). -/
def RunKind.cause : RunKind → TriggerCause
  | .lineAnswer => .toneLine
  | .lineCalling => .toneLine
  | .farAnswer => .toneFar
  | .farCalling => .toneFar

/-- The direction code of a run's mark: 0 LINE, 1 FAR (R170). -/
def RunKind.direction : RunKind → Half
  | .lineAnswer => 0
  | .lineCalling => 0
  | .farAnswer => 1
  | .farCalling => 1

/-- A run of a port. -/
def Verdict.toneRun (v : Verdict) : RunKind → ToneRun
  | .lineAnswer => v.lineAnswer
  | .lineCalling => v.lineCalling
  | .farAnswer => v.farAnswer
  | .farCalling => v.farCalling

/-- A run of a port replaced. -/
def Verdict.setToneRun (v : Verdict) (k : RunKind) (r : ToneRun) : Verdict :=
  match k with
  | .lineAnswer => { v with lineAnswer := r }
  | .lineCalling => { v with lineCalling := r }
  | .farAnswer => { v with farAnswer := r }
  | .farCalling => { v with farCalling := r }

/-- R168: the trigger length: the paired channel's steady_trigger if it is open, else 20. -/
def State.triggerLength (s : State) (p : LineNo) : Nat :=
  if (s.chan.get p).state = .closed then 20 else (s.chan.get p).params.steadyTrigger

/-- R168: one run brought up to date by a verdict; at the trigger length it fires once, gives its mark and passes its trigger. -/
def State.updateRun (s : State) (p : LineNo) (k : RunKind) (time : Word) (fv : FrameVerdict) : State :=
  let v := s.verdict.get p
  if fv = k.counts then
    let n := min 255 ((v.toneRun k).count + 1)
    let length := s.triggerLength p
    if (v.toneRun k).fired = false ∧ length ≤ n then
      let v := { v.setToneRun k { count := n, fired := true } with triggers := v.triggers ++ [k.cause] }
      (s.setVerdict p v).giveVerdictMark k.mark p time k.direction (BitVec.ofNat 32 length)
    else s.setVerdict p (v.setToneRun k { count := n, fired := (v.toneRun k).fired })
  else s.setVerdict p (v.setToneRun k ToneRun.reset)

/-! ### Verdict events (R163, R165) -/

/-- R163, R171: the line debounce state and both line tone runs cleared. -/
def Verdict.lineCleared (v : Verdict) : Verdict :=
  { v with
    candidate := none, candRun := 0, digitOn := none, offRun := 0, onCount := 0
    lineAnswer := ToneRun.reset, lineCalling := ToneRun.reset }

/-- R163, R167, R168: a line verdict's effect on an OFFHOOK port. -/
def State.applyLineVerdict (s : State) (p : LineNo) (time : Word) (fv : FrameVerdict) : State :=
  ((s.debounce p time fv).updateRun p .lineAnswer time fv).updateRun p .lineCalling time fv

/-- R163: the line verdict event of a port. -/
def State.lineVerdictStep (s : State) (p : LineNo) : State :=
  if (s.port.get p).state = .offhook then
    s.applyLineVerdict p s.clock.boundarySc (lineVerdictOf (s.port.get p).lineFrame)
  else s.setVerdict p (s.verdict.get p).lineCleared

/-- The line verdict event of a port, when it is due (R163). -/
def State.verdictEvent (s : State) (p : LineNo) : State := s.takeEvent (.verdict p) fun s => s.lineVerdictStep p

/-- LINE_VERDICT (R163). -/
def execLineVerdict (p : LineNo) (s : State) : Host.Outcome State Fault Refusal := .next (s.verdictEvent p)

/-- R165: both far tone runs started afresh unless a far frame follows the port's last one by one boundary with no reopening between. -/
def Verdict.followFar (v : Verdict) (f : FarFrame) : Verdict :=
  if f.afresh = false ∧ v.lastFar = some (f.boundary - 1) then v
  else { v with farAnswer := ToneRun.reset, farCalling := ToneRun.reset }

/-- R165, R168: a far verdict's effect on the far tone runs. -/
def State.applyFarVerdict (s : State) (p : LineNo) (time : Word) (fv : FrameVerdict) : State :=
  (s.updateRun p .farAnswer time fv).updateRun p .farCalling time fv

/-- R165: a far frame event: the frame is classified, the runs follow it, and its boundary count is stored. -/
def State.farFrameStep (s : State) (p : LineNo) (f : FarFrame) : State :=
  let s := s.setVerdict p ((s.verdict.get p).followFar f)
  let s := s.applyFarVerdict p f.sc (farVerdictOf f.samples)
  s.setVerdict p { s.verdict.get p with lastFar := some f.boundary }

/-- The port's oldest far frame handed and not yet taken, if there is one, is taken (R165). -/
def State.farFrameEvent (s : State) (p : LineNo) : State :=
  let v := s.verdict.get p
  if s.clock.running then
    match v.farFrames with
    | [] => s
    | f :: fs => (s.setVerdict p { v with farFrames := fs }).farFrameStep p f
  else s

/-- FAR_FRAME (R165). -/
def execFarFrame (p : LineNo) (s : State) : Host.Outcome State Fault Refusal := .next (s.farFrameEvent p)

end Sys2Proof.Machine
end

