-- ==== Sys2Proof/Machine/Clock.lean ====
section
/-!
DEFINITION. Machine/Clock.lean: the sample period: SC, the instants at which events fall due, each port's output sample, and the sample
periods that pass inside a sweep (R44, R45, R46, R115, R117, R127, R128, R137, R151, R159).
-/
namespace Sys2Proof.Machine

/-! ### Output samples (R127) -/

/-- The identity sample of a sample period (R151). -/
def Ident.sample (i : Ident) : Sample := sat (sineSample 2048 i.phase)

/-- R151: after a sample period of sending, the phase gains the increment of its bit and the samples sent gain 1. -/
def Ident.step (i : Ident) : Ident :=
  if i.status = .sending then
    { i with phase := i.phase + identIncrement (streamBitAt i.buffer i.sent), sent := i.sent + 1 }
  else i

/-- R128: the played audio of a port: sample i of its frame in the i-th period after the boundary it was handed at. A port whose channel's
frame boundary has fallen due and is not yet taken holds no frame for the present period and is silent (log 19). -/
def State.playedSample (s : State) (p : LineNo) : Sample :=
  if s.due.frame.get p then 0 else (s.port.get p).played.getD s.clock.phase 0

/-- R127, R128: a port's output sample of a sample period: identity, tone, played audio or silence, the first that is present. -/
def State.outputSample (s : State) (p : LineNo) : Sample :=
  if (s.ident.get p).status = .sending then (s.ident.get p).sample
  else if (s.tone.get p).running then (s.tone.get p).sample
  else if (s.port.get p).state = .offhook ∧ (s.chan.get p).state ≠ .closed then s.playedSample p
  else 0

/-- A sample period's effect on the lines: outputs chosen, input samples gathered, tones and identities stepped. -/
def State.lineSamples (s : State) (line : Four Sample) : State :=
  { s with
    port := s.port.mapIdx fun p r => { r with output := s.outputSample p, lineBuf := line.get p :: r.lineBuf }
    tone := s.tone.mapIdx fun _ t => t.step
    ident := s.ident.mapIdx fun _ i => i.step }

/-! ### Instants (R45, R115, R137) -/

/-- What falls due when SC reaches a multiple of 8: the sweep timer's expiry, and each port's scan and timer expiry (R8, R115, R117). -/
def Due.atScan (d : Due) : Due := { d with sweep := true, scan := .all true, timer := .all true }

/-- R137: at a scan instant the drive count of a port in BURST gains 1; it stands at N + 1 until the toggle takes it back (log 16). -/
def Ring.driveStep (r : Ring) : Ring := if r.sub = .burst then { r with drive := min (r.freq + 1) (r.drive + 1) } else r

/-- Whether a port has a running cadence (R132). -/
def State.hasRun (s : State) (p : LineNo) : Bool := (s.ring.get p).run.isSome || (s.tone.get p).run.isSome

/-- What falls due at a point of the frame grid: each channel's frame boundary and capture event, each port's line verdict, a tick of
each running cadence, and the mark writer's boundary (R58, R81, R132, R163, R179). -/
def State.dueAtBoundary (s : State) : Due :=
  { s.due with
    frame := .all true, capture := .all true, verdict := .all true, markWriter := true
    tick := s.due.tick.mapIdx fun p _ => s.hasRun p }

/-- R45, R81: a point of the frame grid: the boundary count gains 1 and the 80 samples delivered since the last point are the frame. -/
def State.reachBoundary (s : State) : State :=
  { s with
    clock := { s.clock with phase := 0, boundaries := s.clock.boundaries + 1, boundarySc := s.clock.sc }
    due := s.dueAtBoundary
    port := s.port.mapIdx fun _ r => { r with lineFrame := (r.lineBuf.take 80).reverse, lineBuf := [] } }

/-- R115, R137: a scan instant. -/
def State.reachScan (s : State) : State :=
  { s with due := s.due.atScan, ring := s.ring.mapIdx fun _ r => r.driveStep }

/-- R44: SC gains 1, and so does the count of samples since the last point of the frame grid. -/
def State.countSample (s : State) : State :=
  { s with clock := { s.clock with sc := s.clock.sc + 1, phase := s.clock.phase + 1 } }

/-- R44, R45: SC gains 1, and the instant it reaches may be a scan instant, a point of the frame grid, or both. -/
def State.advanceClock (s : State) : State :=
  let s := s.countSample
  let s := if s.clock.sc.toNat % 8 = 0 then s.reachScan else s
  if 80 ≤ s.clock.phase then s.reachBoundary else s

/-! ### Sample periods inside a sweep (R46) -/

/-- Nothing that has fallen due waits to be taken: no timed event, no far frame, no tone trigger and no toggle of a ring drive. -/
def State.quiet (s : State) : Bool :=
  s.due == Due.reset && (List.finRange 4).all fun p =>
    (s.verdict.get p).farFrames.isEmpty && (s.verdict.get p).triggers.isEmpty && !s.togglesNow p

/-- R44, R46, R127: a sample period that passes inside a sweep. None passes before every other event of the instant has been taken: those
events fall at the instant itself (R45, R115, R117, R132), so they govern the sample periods that follow it from the first on, and a half of
d ticks lasts 80·d periods and an identity stream 80·D (R128, R150, R160, log 5). None passes that would bring the next scan instant or the
next point of the frame grid, since a sweep ends before the next expiry (R46). -/
def State.passSample (s : State) (line : Four Sample) : State :=
  if s.quiet = false ∨ (s.clock.sc + 1).toNat % 8 = 0 ∨ 79 ≤ s.clock.phase then s else (s.lineSamples line).countSample

/-- The next step of a sweep: the sample periods given for it pass first, so that what the step does governs the output from the next one on
(R46, R127, log 5). -/
def State.sweepWork (s : State) : State :=
  match s.clock.work with
  | [] => s
  | w :: ws => w.foldl State.passSample { s with clock := { s.clock with work := ws } }

/-- SAMPLE_PERIOD (R44): one sample period of the sample link; in HALTED the clock stands still (R44). -/
def execSamplePeriod (line : Four Sample) (s : State) : Host.Outcome State Fault Refusal :=
  .next (if s.clock.running then (s.lineSamples line).advanceClock else s)

end Sys2Proof.Machine
end

