-- ==== Sys2Proof/WellFormed.lean ====
section
/-!
DEFINITION. WellFormed.lean: which commands are what their row of the table says they are.
A RUNCTL row has its own field set in an enabled lane (R182); a discarded window write addresses none of the two writable registers (R3);
RAM contents lie in exchange memory (R1); a sweep ends before the next expiry, so fewer than 8 sample periods pass in it (R46).
-/
namespace Sys2Proof

/-- The half-word index of RUNCTL in the control window: 10012h (R3). -/
def runctlHalf : BitVec 15 := 9

/-- The half-word index of ATTNCTL in the control window: 10014h (R3). -/
def attnctlHalf : BitVec 15 := 10

/-- The checks a command must pass to be the row it is written as. -/
def Instr.wellFormed : Instr → Bool
  | .powerOnReset ram => (ram.getD []).all fun c => decide (c.1 < 65536)
  | .softReset lanes data => lanes.low && data.getLsbD 1
  | .run lanes data => lanes.low && data.getLsbD 0
  | .guardClear lanes data => lanes.low && data.getLsbD 2
  | .attnctlWrite _ _ => true
  | .peek _ => true
  | .add _ => true
  | .take _ => true
  | .clear _ => true
  | .windowWriteDiscarded half _ _ => half != runctlHalf && half != attnctlHalf
  | .hostMemoryWrite _ _ _ => true
  | .sweep work _ => decide ((work.map List.length).sum ≤ 7)
  | .frameBoundary _ => true
  | .farFrame _ => true
  | .captureEvent _ => true
  | .lineVerdict _ => true
  | .toneTrigger _ _ => true
  | .lineScan _ _ _ => true
  | .portTimerExpiry _ => true
  | .cleared _ => true
  | .digitGapExpiry _ => true
  | .cadenceTick _ => true
  | .cadenceAdvance _ => true
  | .grantPass _ => true
  | .ringDriveToggle _ => true
  | .identStart _ => true
  | .identSent _ => true
  | .identTailEnd _ => true
  | .markWriterBoundary => true
  | .samplePeriod _ => true

end Sys2Proof
end

