-- ==== Sys2Proof/Machine/Flags.lean ====
section
/-!
DEFINITION. Machine/Flags.lean: the lines and register values that follow the state: ATTN#, FEEDn, REVn, RINGn, and what a host read
returns (R2, R3, R6, R109, R181, R182, R184).
-/
namespace Sys2Proof.Machine

/-- ATTN# is asserted while READY is above 0 and EN_READY is 1, or GUARD and EN_GUARD are 1 (R184), and released while RST# is low (R186). -/
def State.attnAsserted (s : State) : Bool :=
  !s.bus.held && ((s.ex.ready != 0 && s.bus.enReady) || (s.ex.guard && s.bus.enGuard))

/-- FEEDn is active in IDLE, RINGING and OFFHOOK (R109), and inactive while RST# is low (R186). -/
def State.feedActive (s : State) (p : LineNo) : Bool := !s.bus.held && (s.port.get p).state != .down

/-- REVn is active while the polarity is REVERSE and the state is not DOWN (R109), and inactive while RST# is low (R186). -/
def State.revActive (s : State) (p : LineNo) : Bool :=
  !s.bus.held && (s.port.get p).polarity == .reversed && (s.port.get p).state != .down

/-- RINGn is driven high while the port is RINGING in its burst sub-phase and the wave is high (R109, R137), never while RST# is low (R186). -/
def State.ringDriven (s : State) (p : LineNo) : Bool :=
  !s.bus.held && (s.port.get p).state == .ringing && (s.ring.get p).sub == .burst && (s.ring.get p).level

/-- The value of RUNCTL: RUN in bit 0, RESET reads 0, GUARD in bit 2 (R182, R187). -/
def State.runctl (s : State) : Half := (if s.clock.running then 1 else 0) ||| (if s.ex.guard then 4 else 0)

/-- The value of ATTNCTL: EN_READY in bit 0, EN_GUARD in bit 1 (R184, R187). -/
def State.attnctl (s : State) : Half := (if s.bus.enReady then 1 else 0) ||| (if s.bus.enGuard then 2 else 0)

/-- IDENT reads 3A41h at all times (R181). -/
def identValue : Half := 0x3A41

/-- What a host read of exchange memory returns; it changes no state (R2). -/
def State.readMemory (s : State) (half : BitVec 15) : Half := s.halfAt (2 * half.toNat)

/-- What a host read of the control window returns (R3). A read at an operation address of a tally returns the tally's value before
the operation, which is a command of its own (R6); every other read changes no state. -/
def State.readWindow (s : State) (half : BitVec 15) : Half :=
  let i := half.toNat
  if i < 4 then s.ex.posts.setWidth 16
  else if i < 8 then s.ex.ready.setWidth 16
  else if i = 8 then identValue
  else if i = 9 then s.runctl
  else if i = 10 then s.attnctl
  else if i = 11 then s.ex.guardAddr
  else 0

/-- What a host read returns: HA16 low selects exchange memory, high the control window (R2, R3); 0000h while RST# is low (R186). -/
def State.busRead (s : State) (window : Bool) (half : BitVec 15) : Half :=
  if s.bus.held then 0 else if window then s.readWindow half else s.readMemory half

/-- The four operations on a tally as its operation addresses give them, from the lowest (R3). -/
def tallyOperation (t : Tally) : Nat → Option Instr
  | 0 => some (.peek t)
  | 1 => some (.add t)
  | 2 => some (.take t)
  | 3 => some (.clear t)
  | _ => none

/-- The command that a host read at bus address 10000h + 2·`half` is: 10000h to 10006h are PEEK, ADD, TAKE and CLEAR on POSTS, 10008h to
1000Eh the same on READY (R3). A read at any other address is no command, since it changes no state. -/
def windowReadCommand (half : BitVec 15) : Option Instr :=
  if half.toNat < 4 then tallyOperation .posts half.toNat else tallyOperation .ready (half.toNat - 4)

end Sys2Proof.Machine
end

