-- ==== Sys2Proof/Machine/HostBus.lean ====
section
/-!
DEFINITION. Machine/HostBus.lean: the host's accesses and the resets (R2, R3, R6, R15, R16, R182 to R186).
-/
namespace Sys2Proof.Machine

/-! ### Resets (R185, R186) -/

/-- R185: every block at its soft reset values, exchange memory as it stands, the part HALTED. Every block's soft reset values equal its
power-on values (R20, R22, R44, R78, R94, R108, R134, R155, R171, R175, R184). -/
def State.softReset (s : State) : State := { State.reset with mem := s.mem, pending := s.pending }

/-- R186: the power-on values of every block, with RST# low or high again and memory given; the part is HALTED. -/
def State.powerOn (s : State) (held : Bool) (mem : Memory) : State :=
  { State.reset with bus := { Bus.reset with held := held }, mem := mem, pending := s.pending }

/-- POWER_ON_RESET (R186): every block at its power-on values. While RST# stays low no access reads or writes exchange memory (log 10); when it
is high again memory holds what the RAM happens to hold (R5, log 2). -/
def execPowerOnReset (ram : Option (List Host.Cell)) (s : State) : Host.Outcome State Fault Refusal :=
  .next (match ram with
    | none => s.powerOn true s.mem
    | some cells => s.powerOn false (Memory.ofCells cells))

/-! ### Register writes (R16, R182 to R184) -/

/-- R183: the passage from HALTED to RUNNING: SC 0, and the boundary grid, the sweep timer, scans and timers begin. -/
def State.start (s : State) : State := { s with clock := { Clock.reset with running := true }, due := Due.reset }

/-- R182: a host write to RUNCTL acts on each field whose byte lane is enabled; all fields lie in the low byte (R187). RESET prevails. While
RST# is low the write is discarded (R186). -/
def State.writeRunctl (s : State) (lanes : Lanes) (data : Half) : State :=
  if s.bus.held || !lanes.low then s
  else if data.getLsbD 1 then s.softReset
  else
    let s := if data.getLsbD 2 then { s with ex := { s.ex with guard := false } } else s
    if data.getLsbD 0 && !s.clock.running then s.start else s

/-- R184: a host write to ATTNCTL sets the two enables, both in the low byte (R187). While RST# is low it is discarded (R186). -/
def State.writeAttnctl (s : State) (lanes : Lanes) (data : Half) : State :=
  if s.bus.held then s
  else if lanes.low then { s with bus := { s.bus with enReady := data.getLsbD 0, enGuard := data.getLsbD 1 } } else s

/-- R3: a host write to the control window: RUNCTL and ATTNCTL act, every other address discards it. -/
def State.writeWindow (s : State) (half : BitVec 15) (lanes : Lanes) (data : Half) : State :=
  if half = runctlHalf then s.writeRunctl lanes data
  else if half = attnctlHalf then s.writeAttnctl lanes data
  else s

/-- SOFT_RESET (R185): a RUNCTL write with 1 in RESET. -/
def execSoftReset (lanes : Lanes) (data : Half) (s : State) : Host.Outcome State Fault Refusal := .next (s.writeRunctl lanes data)

/-- RUN (R183): a RUNCTL write with 1 in RUN. -/
def execRun (lanes : Lanes) (data : Half) (s : State) : Host.Outcome State Fault Refusal := .next (s.writeRunctl lanes data)

/-- GUARD_CLEAR (R16): a RUNCTL write with 1 in GUARD. -/
def execGuardClear (lanes : Lanes) (data : Half) (s : State) : Host.Outcome State Fault Refusal := .next (s.writeRunctl lanes data)

/-- ATTNCTL_WRITE (R184). -/
def execAttnctlWrite (lanes : Lanes) (data : Half) (s : State) : Host.Outcome State Fault Refusal := .next (s.writeAttnctl lanes data)

/-- WINDOW_WRITE_DISCARDED (R3). -/
def execWindowWriteDiscarded (half : BitVec 15) (lanes : Lanes) (data : Half) (s : State) : Host.Outcome State Fault Refusal :=
  .next (s.writeWindow half lanes data)

/-! ### Tally reads (R6) -/

/-- What a host read returned. -/
def State.returnData (s : State) (data : Half) : State := { s with bus := { s.bus with readData := data } }

/-- R6: a read at an operation address returns the tally's value before the operation, in the low byte with 00h above it, and then the tally
holds `after`. While RST# is low the read returns 0000h (R186) and operates on nothing (log 10). -/
def State.operateTally (s : State) (t : Tally) (after : BitVec 8) : State :=
  if s.bus.held then s.returnData 0 else (s.returnData ((s.tally t).setWidth 16)).setTally t after

/-- PEEK (R6): the value is returned and left. -/
def execPeek (t : Tally) (s : State) : Host.Outcome State Fault Refusal := .next (s.operateTally t (s.tally t))

/-- ADD (R6): the value is returned, then raised by 1, holding at 255. -/
def execAdd (t : Tally) (s : State) : Host.Outcome State Fault Refusal := .next (s.operateTally t (tallyAdd (s.tally t)))

/-- TAKE (R6): the value is returned, then lowered by 1, holding at 0. -/
def execTake (t : Tally) (s : State) : Host.Outcome State Fault Refusal := .next (s.operateTally t (tallyTake (s.tally t)))

/-- CLEAR (R6): the value is returned, then becomes 0. -/
def execClear (t : Tally) (s : State) : Host.Outcome State Fault Refusal := .next (s.operateTally t 0)

/-! ### Memory writes (R2, R15) -/

/-- R2: the enabled byte lanes of a half-word stored. -/
def State.storeLanes (s : State) (addr : Nat) (lanes : Lanes) (data : Half) : State :=
  let s := if lanes.low then s.putByte addr (data.extractLsb' 0 8) else s
  if lanes.high then s.putByte (addr + 1) (data.extractLsb' 8 8) else s

/-- R15: a write that addresses a byte of a kept cell is discarded. A write with no lane enabled addresses no byte (log 13). -/
def State.writeGuarded (s : State) (addr : Nat) (lanes : Lanes) : Bool :=
  (lanes.low || lanes.high) &&
    match cellOfAddr addr with
    | none => false
    | some n => s.isKept n

/-- R15: a discarded write sets GUARD and records its address, unless GUARD is already 1. -/
def State.recordGuard (s : State) (addr : Nat) : State :=
  if s.ex.guard then s else { s with ex := { s.ex with guard := true, guardAddr := BitVec.ofNat 16 addr } }

/-- HOST_MEMORY_WRITE (R2, R15): a half-word write at byte address 2·`half`; discarded while RST# is low (R186). -/
def execHostMemoryWrite (half : BitVec 15) (lanes : Lanes) (data : Half) (s : State) : Host.Outcome State Fault Refusal :=
  let addr := 2 * half.toNat
  .next (if s.bus.held then s else if s.writeGuarded addr lanes then s.recordGuard addr else s.storeLanes addr lanes data)

end Sys2Proof.Machine
end

