-- ==== Sys2Proof/Machine/Timing.lean ====
section
/-!
DEFINITION. Machine/Timing.lean: the playout timing arithmetic (R47 to R57).
-/
namespace Sys2Proof.Machine

/-- A number of frames in samples, as a 32-bit quantity. -/
def framesToSamples (n : Nat) : Word := BitVec.ofNat 32 (80 * n)

/-- The raw distance Δ = signed(t − C) (R48). -/
def rawDistance (t cursor : Word) : Int := (t - cursor).toInt

/-- The grid remainder r, the floor remainder in 0..79 (R48). -/
def gridRemainder (d : Int) : Int := d % 80

/-- The rounded distance Δ′ (R49). -/
def roundedDistance (d : Int) : Int :=
  let r := gridRemainder d
  if r ≤ 40 then d - r else d + 80 - r

/-- The class of a block (R34). -/
inductive BlockClass where
  | late
  | placeable
  | early
deriving DecidableEq, Repr

/-- R34: LATE below 0, PLACEABLE in 0..2559, EARLY from 2560. -/
def classOf (rounded : Int) : BlockClass :=
  if rounded < 0 then .late else if rounded < 2560 then .placeable else .early

/-- The rounded timestamp C + Δ′ (R50). -/
def roundedTimestamp (cursor : Word) (rounded : Int) : Word := cursor + BitVec.ofInt 32 rounded

/-- The transit T = SC at take − TS (R51). -/
def transit (sc ts : Word) : Word := sc - ts

/-- The step A = min(|D|, 4000) (R52). -/
def jitterStep (t tPrev : Word) : Nat := min (t - tPrev).toInt.natAbs 4000

/-- The new jitter figure (R53). -/
def jitterNext (j16 a : Nat) : Nat := j16 + a - (j16 + 8) / 16

/-- The target of R55. -/
def targetOf (p : OpenParams) (j16 : Nat) : Nat :=
  clampNat (p.baseFrames + (3 * j16 + 1279) / 1280) p.minFrames p.maxFrames

/-- R56: the steady frames, and whether an explicit count was changed in range. -/
def steadyFramesOf (target margin : Nat) : Option Nat → Nat × Bool
  | none => (min 30 (target + margin), false)
  | some v => (clampNat v target 30, v != clampNat v target 30)

/-- The delay F of anchoring, re-anchoring and resync: the target in SPEECH, the steady frames in STEADY (R32, R33, R38). -/
def Channel.delay (c : Channel) : Nat :=
  match c.mode with
  | .speech => c.target
  | .steady => c.steady.getD c.target

/-- C = TS − 80·F (R32, R33, R38). -/
def Channel.anchorCursor (c : Channel) (ts : Word) : Word := ts - framesToSamples c.delay

end Sys2Proof.Machine
end

