-- ==== Sys2Proof/Machine/Playout.lean ====
section
/-!
DEFINITION. Machine/Playout.lean: the playout side of a channel: arrival of parcels (R30 to R39), frame boundaries (R58 to R69), the two
modes (R70 to R77) and the counters (R42).
-/
namespace Sys2Proof.Machine

/-! ### Counters (R42) -/

/-- A counter's place in R42's order. -/
def Counter.index : Counter → Nat
  | .played => 0
  | .concealed => 1
  | .filled => 2
  | .lateBlocks => 3
  | .earlyBlocks => 4
  | .duplicateBlocks => 5
  | .recoveredBlocks => 6
  | .realignedBlocks => 7
  | .trimmedFrames => 8
  | .resyncs => 9
  | .parcelsSent => 10
  | .starvedPeriods => 11

/-- The value of a counter. -/
def Channel.counter (c : Channel) (k : Counter) : Half := c.counters.getD k.index 0

/-- R42: a counter gains 1; at 65535 it goes to 0 and its rollover flag is set. -/
def Channel.bump (c : Channel) (k : Counter) : Channel :=
  { c with
    counters := c.counters.set k.index (c.counter k + 1)
    rollover := if c.counter k = 0xFFFF then c.rollover ||| (1#12 <<< k.index) else c.rollover }

/-- A counter of a channel of the part gains 1. -/
def State.bump (s : State) (ch : LineNo) (k : Counter) : State := s.setChan ch ((s.chan.get ch).bump k)

/-! ### Arrival (R30) -/

/-- The class of a block against a cursor (R34, R48, R49). -/
def Channel.classify (c : Channel) (b : Block) : BlockClass := classOf (roundedDistance (rawDistance b.ts c.cursor))

/-- The four kinds of parcel (R30); a resync carries its cause, true for an EARLY run. -/
inductive ParcelKind where
  | anchoring
  | reanchoring
  | ordinary
  | resync (early : Bool)
deriving DecidableEq, Repr

/-- R37: the late and early runs after a trial classification. -/
def runsAfter (late early : Nat) (classes : List BlockClass) : Nat × Nat :=
  if classes.any (· == .placeable) then (0, 0)
  else if classes.all (· == .late) then (late + 1, 0)
  else if classes.all (· == .early) then (0, early + 1)
  else (late, early)

/-- R30 step 1: the kind of a parcel, and the channel with its runs brought up to date (R37). -/
def Channel.alignment (c : Channel) (h : ParcelHeader) : ParcelKind × Channel :=
  if c.state = .waiting then (.anchoring, { c with lateRun := 0, earlyRun := 0 })
  else if c.state = .gap ∧ c.mode = .speech ∧ h.spurt = true then (.reanchoring, { c with lateRun := 0, earlyRun := 0 })
  else
    let runs := runsAfter c.lateRun c.earlyRun (h.blocks.map c.classify)
    let kind := if 3 ≤ runs.1 then ParcelKind.resync false else if 3 ≤ runs.2 then ParcelKind.resync true else .ordinary
    (kind, { c with lateRun := runs.1, earlyRun := runs.2 })

/-- R52 to R54: the jitter update of a channel by a parcel's transit. -/
def Channel.jitterUpdate (c : Channel) (t tPrev : Word) : Channel :=
  let j16 := jitterNext c.j16 (jitterStep t tPrev)
  { c with j16 := j16, target := targetOf c.params j16, prevTransit := some t }

/-- R31: the jitter step of a parcel. A previous transit is absent exactly for an anchoring parcel (R31). -/
def Channel.jitterStepFor (c : Channel) (kind : ParcelKind) (t : Word) : Channel :=
  match kind, c.prevTransit with
  | .ordinary, some tPrev => c.jitterUpdate t tPrev
  | .reanchoring, some tPrev => c.jitterUpdate t tPrev
  | _, _ => { c with prevTransit := some t }

/-- R32, R33, R38: the cursor set to TS − 80·F, the hold count and the excess run 0, trim pending cleared. -/
def Channel.realign (c : Channel) (ts : Word) : Channel :=
  { c with cursor := c.anchorCursor ts, hold := 0, excess := 0, trim := false }

/-- R38: a resync parcel's realignment: the list flushed, the cursor moved, the runs 0, the counter and the mark. -/
def State.resync (s : State) (ch : LineNo) (early : Bool) (ts : Word) : State :=
  let entries := (s.chan.get ch).list
  let s := (s.setChan ch { s.chan.get ch with list := [] }).dropRefs entries
  let c := (s.chan.get ch).realign ts
  let s := s.setChan ch (({ c with state := .flowing, lateRun := 0, earlyRun := 0 }).bump .resyncs)
  s.giveLineMark .resync ch (if early then 1 else 0) c.cursor

/-- R30 step 3: the cursor move of a parcel's kind. -/
def State.moveCursor (s : State) (ch : LineNo) (kind : ParcelKind) (ts : Word) : State :=
  match kind with
  | .anchoring => s.setChan ch { (s.chan.get ch).realign ts with state := .flowing }
  | .reanchoring => s.setChan ch ((s.chan.get ch).realign ts)
  | .resync early => s.resync ch early ts
  | .ordinary => s

/-- An entry inserted so that the list ascends from the cursor (R35). -/
def insertEntry (cursor : Word) (e : Entry) : List Entry → List Entry
  | [] => [e]
  | x :: xs => if rawDistance e.ts cursor < rawDistance x.ts cursor then e :: x :: xs else x :: insertEntry cursor e xs

/-- R35, R36: one block classified, placed or discarded, and counted; the second component counts the entries made. -/
def Channel.placeBlock (n : CellNo) (coding : Coding) (acc : Channel × Nat) (b : Block) : Channel × Nat :=
  let c := acc.1
  let d := rawDistance b.ts c.cursor
  let rounded := roundedDistance d
  let c := if gridRemainder d = 0 then c else c.bump .realignedBlocks
  match classOf rounded with
  | .late => (c.bump .lateBlocks, acc.2)
  | .early => (c.bump .earlyBlocks, acc.2)
  | .placeable =>
    let t := roundedTimestamp c.cursor rounded
    if c.list.any (·.ts == t) then (c.bump .duplicateBlocks, acc.2)
    else
      let e : Entry := { ts := t, cell := n, block := b.index, coding := coding, origin := b.origin }
      let c := { c with list := insertEntry c.cursor e c.list }
      (if b.origin = .redundant then c.bump .recoveredBlocks else c, acc.2 + 1)

/-- R35: the blocks of a parcel, in payload order; a GAP channel that gains an entry is FLOWING. -/
def Channel.placeBlocks (c : Channel) (n : CellNo) (coding : Coding) (bs : List Block) : Channel × Nat :=
  let r := bs.foldl (Channel.placeBlock n coding) (c, 0)
  (if 0 < r.2 ∧ r.1.state = .gap then { r.1 with state := .flowing } else r.1, r.2)

/-- R30 steps 4 and 5: the blocks placed, the reference count set, and the cell returned if nothing names it (R39). -/
def State.placeParcel (s : State) (ch : LineNo) (n : CellNo) (coding : Coding) (bs : List Block) : State :=
  let r := (s.chan.get ch).placeBlocks n coding bs
  let s := (s.setChan ch r.1).setRole n (.parcel ch r.2)
  if r.2 = 0 then s.handOver n stampReturned else s

/-- R30: the arrival processing of a valid parcel in its channel. -/
def State.arrive (s : State) (ch : LineNo) (n : CellNo) (coding : Coding) (h : ParcelHeader) : State :=
  let a := (s.chan.get ch).alignment h
  let s := s.setChan ch (a.2.jitterStepFor a.1 (transit s.now h.ts))
  (s.moveCursor ch a.1 h.ts).placeParcel ch n coding h.blocks

/-! ### Frame boundaries (R59) -/

/-- R68, R69, R128: the output frame handed to the port, and the far frame, if there is one, to the tone and verdict unit. -/
def State.handFrames (s : State) (ch : LineNo) (out : Frame) (far : Option Frame) : State :=
  let s := s.setPort ch { s.port.get ch with played := out }
  match far with
  | none => s
  | some f =>
    let v := s.verdict.get ch
    s.setVerdict ch { v with
      reopened := false
      farFrames := v.farFrames ++
        [{ boundary := s.clock.boundaries, sc := s.clock.boundarySc, afresh := v.reopened, samples := f }] }

/-- R62: the trim step. -/
def State.trimStep (s : State) (ch : LineNo) : State :=
  let c := s.chan.get ch
  let moved := { c with cursor := c.cursor + 80, trim := false }
  match c.list.find? (·.ts == c.cursor) with
  | none => s.setChan ch moved
  | some e =>
    (s.setChan ch (({ moved with list := c.list.eraseP (·.ts == c.cursor) }).bump .trimmedFrames)).dropRef e.cell

/-- R67: depth control, in SPEECH, as the state stands after R66. -/
def Channel.depthControl (c : Channel) : Channel :=
  if c.mode = .steady then c
  else if c.state = .flowing ∧ c.target + 3 ≤ c.list.length then
    if 20 ≤ c.excess + 1 then { c with excess := 0, trim := true } else { c with excess := c.excess + 1 }
  else { c with excess := 0 }

/-- R66: the cursor advances by 80 and the state is settled; depth control follows (R67). -/
def Channel.settle (c : Channel) : Channel :=
  ({ c with cursor := c.cursor + 80, state := if c.list.isEmpty then .gap else c.state }).depthControl

/-- R64: the quarters by which a conceal count scales. -/
def concealQuarters (count : Nat) : Nat := 4 - min count 4

/-- R63 to R67: an ordinary frame boundary. -/
def State.ordinaryBoundary (s : State) (ch : LineNo) : State :=
  let c := s.chan.get ch
  match c.list.find? (·.ts == c.cursor) with
  | some e =>
    let f := s.decodeBlock e.cell e.coding e.block
    let c := ({ c with list := c.list.eraseP (·.ts == c.cursor), last := f, conceal := 0 }).bump .played
    ((s.setChan ch c.settle).dropRef e.cell).handFrames ch (applyGain c.params.playoutGain f) (some f)
  | none =>
    match c.mode with
    | .speech =>
      let count := min 255 (c.conceal + 1)
      let f := scaleQuarters (concealQuarters count) c.last
      let c := ({ c with conceal := count }).bump .concealed
      (s.setChan ch c.settle).handFrames ch (applyGain c.params.playoutGain f) (some silence)
    | .steady => (s.setChan ch (c.bump .filled).settle).handFrames ch silence (some silence)

/-- R59: what a channel does at its frame boundary. -/
def State.playBoundary (s : State) (ch : LineNo) : State :=
  let c := s.chan.get ch
  match c.state with
  | .closed => s
  | .waiting => s.handFrames ch silence none
  | _ =>
    if 0 < c.hold then (s.setChan ch { c with hold := c.hold - 1 }).handFrames ch silence (some silence)
    else (if c.trim then s.trimStep ch else s).ordinaryBoundary ch

/-- A channel's frame boundary event, when it is due (R58, R59). -/
def State.frameEvent (s : State) (ch : LineNo) : State := s.takeEvent (.frame ch) fun s => s.playBoundary ch

/-- FRAME_BOUNDARY (R59): a channel's frame boundary event. -/
def execFrameBoundary (ch : LineNo) (s : State) : Host.Outcome State Fault Refusal := .next (s.frameEvent ch)

/-! ### SPEECH and STEADY (R70 to R77) -/

/-- Whether a channel is anchored: FLOWING or GAP. -/
def Channel.anchored (c : Channel) : Bool := c.state == .flowing || c.state == .gap

/-- The 32-bit detail of a mode mark: steady frames plus 65,536 times a hold count (R77). -/
def modeDetail (steady hold : Nat) : Word := BitVec.ofNat 32 (steady + 65536 * hold)

/-- The codes of a MODE_STEADY mark's cause (R190). -/
def causeOrder : Half := 0

/-- The code of a trigger's cause (R190). -/
def triggerCode : TriggerCause → Half
  | .toneLine => 1
  | .toneFar => 2

/-- R72: entry into STEADY, and whether an explicit count was changed in range. -/
def State.enterSteady (s : State) (ch : LineNo) (explicit : Option Nat) (cause : Half) : State × Bool :=
  let c := s.chan.get ch
  let r := steadyFramesOf c.target c.params.steadyMargin explicit
  let added := if c.anchored then r.1 - c.target else 0
  let s := s.setChan ch { c with steady := some r.1, hold := c.hold + added, mode := .steady, excess := 0, trim := false }
  (s.giveLineMark .modeSteady ch cause (modeDetail r.1 added), r.2)

/-- R74: CHANNEL_STEADY on a channel already in STEADY; the second component says whether the answer is ADJUSTED. -/
def State.reapplySteady (s : State) (ch : LineNo) (explicit : Option Nat) : State × Bool :=
  let c := s.chan.get ch
  let r := steadyFramesOf c.target c.params.steadyMargin explicit
  let present := c.steady.getD 0
  if present < r.1 then
    (s.setChan ch { c with steady := some r.1, hold := if c.anchored then c.hold + (r.1 - present) else c.hold }, r.2)
  else if r.1 < present then (s, true)
  else (s, r.2)

/-- R76: the return to SPEECH of a channel in STEADY. -/
def State.returnToSpeech (s : State) (ch : LineNo) : State :=
  let c := s.chan.get ch
  let s := s.giveLineMark .modeSpeech ch 0 (modeDetail (c.steady.getD 0) c.hold)
  s.setChan ch { s.chan.get ch with mode := .speech, steady := none, hold := 0 }

/-- R75: a channel's reaction to a tone trigger. -/
def State.takeTrigger (s : State) (ch : LineNo) (cause : TriggerCause) : State :=
  let c := s.chan.get ch
  if c.state ≠ .closed ∧ c.mode = .speech ∧ c.params.autoSteady = true then
    (s.enterSteady ch none (triggerCode cause)).1
  else s

/-- A channel takes a trigger that the tone and verdict unit has passed to it, if there is one (R75, log 21). -/
def State.triggerEvent (s : State) (ch : LineNo) (cause : TriggerCause) : State :=
  let v := s.verdict.get ch
  if s.clock.running && v.triggers.contains cause then
    (s.setVerdict ch { v with triggers := v.triggers.erase cause }).takeTrigger ch cause
  else s

/-- TONE_TRIGGER (R75). -/
def execToneTrigger (ch : LineNo) (cause : TriggerCause) (s : State) : Host.Outcome State Fault Refusal :=
  .next (s.triggerEvent ch cause)

end Sys2Proof.Machine
end

