-- ==== Sys2Proof/Machine/Capture.lean ====
section
/-!
DEFINITION. Machine/Capture.lean: the capture side of a channel and its outbound parcels (R79 to R95, R166).
-/
namespace Sys2Proof.Machine

/-- R166: the muting signal of a port: test 1 of R164 passes for the samples as delivered, and the port is OFFHOOK. -/
def State.mutingSignal (s : State) (p : LineNo) : Bool :=
  (s.port.get p).state == .offhook && (digitTest (analyse (s.port.get p).lineFrame)).isSome

/-- R81, R129: the frame as delivered from the port, or silence if the port is DOWN. -/
def State.deliveredFrame (s : State) (p : LineNo) : Frame :=
  if (s.port.get p).state = .down then silence else (s.port.get p).lineFrame

/-- R85: the mode that governs a frame: the period mode in PACKING, else the channel's mode. -/
def State.frameMode (s : State) (ch : LineNo) : Mode :=
  if (s.cap.get ch).state = .packing then (s.cap.get ch).periodMode else (s.chan.get ch).mode

/-- R82: the frame after capture gain and digit muting. -/
def State.captureFrame (s : State) (ch : LineNo) (mode : Mode) : Frame :=
  let p := (s.chan.get ch).params
  if mode = .speech ∧ p.muteDigits = true ∧ s.mutingSignal ch = true then silence
  else applyGain p.captureGain (s.deliveredFrame ch)

/-- R83: whether a SPEECH frame is active. -/
def frameActive (threshold : Nat) (f : Frame) : Bool := threshold == 0 || decide (threshold ≤ energy f)

/-- R83: the inactive run after a frame; a STEADY frame is not judged and sets it to 0. -/
def inactiveAfter (mode : Mode) (active : Bool) (run : Nat) : Nat :=
  match mode with
  | .steady => 0
  | .speech => if active then 0 else min 255 (run + 1)

/-- R87: the redundant blocks coded into a cell: the frame k places behind goes to block P + k − 1. -/
def State.putRedundant (s : State) (n : CellNo) (coding : Coding) (packing : Nat) : Nat → List Frame → State
  | _, [] => s
  | k, f :: fs => State.putRedundant (s.putBlock n coding (packing + k) f) n coding packing (k + 1) fs

/-- R87: the redundant blocks of a period: none in SPEECH, min(R, h) in STEADY. -/
def periodRedundancy (mode : Mode) (redundancy : Nat) (history : List Frame) : Nat :=
  match mode with
  | .speech => 0
  | .steady => min redundancy history.length

/-- R88: an outbound claim that failed starves the period; the first failure gives a STARVED mark. -/
def State.starvePeriod (s : State) (ch : LineNo) : State :=
  let c := s.cap.get ch
  let s := (s.setCap ch { c with assembly := none, starving := true }).bump ch .starvedPeriods
  if c.starving then s else s.giveLineMark .starved ch c.nextSeq c.periodTs

/-- R86, R87: a period starts at a frame. -/
def State.startPeriod (s : State) (ch : LineNo) (mode : Mode) : State :=
  let c := s.cap.get ch
  let c := { c with periodMode := mode, periodTs := c.tsCounter, frames := 0, spurt := c.spurt || c.state == .silent, state := .packing }
  let s := s.setCap ch c
  match s.claimOutbound ch with
  | none => s.starvePeriod ch
  | some (n, s) =>
    let p := (s.chan.get ch).params
    let q := periodRedundancy mode p.redundancy c.history
    (s.setCap ch { c with assembly := some n, starving := false, periodQ := q }).putRedundant n p.coding p.packing 0 (c.history.take q)

/-- The 32 header bytes of an outbound parcel (R90, R188). -/
def outboundHeader (ch : LineNo) (p : OpenParams) (c : Capture) : List Byte :=
  [lineByte ch, p.coding.code, if c.spurt then 1 else 0, byteOf p.packing] ++ bytes32 c.periodTs ++ bytes16 c.nextSeq ++
  [byteOf c.periodQ] ++ (List.range 5).map (fun j => if j < c.periodQ then byteOf (j + 1) else 0) ++ List.replicate 16 0

/-- R90: the parcel of a period that holds a cell is completed and handed over as OUT_PARCEL. -/
def State.sendParcel (s : State) (ch : LineNo) (n : CellNo) : State :=
  let c := s.cap.get ch
  let s := s.putCell n 0 (outboundHeader ch (s.chan.get ch).params c)
  let s := s.setCap ch { c with nextSeq := c.nextSeq + 1, spurt := false, assembly := none }
  (s.handOver n stampOutParcel).bump ch .parcelsSent

/-- R91: the capture state after a period of a mode, by the inactive run that its last frame left. -/
def stateAfterPeriod (mode : Mode) (inactive hangover : Nat) : CapState :=
  match mode with
  | .steady => .sending
  | .speech => if max 1 hangover ≤ inactive then .silent else .sending

/-- R90, R91: a period ends at its P-th frame. -/
def State.endPeriod (s : State) (ch : LineNo) : State :=
  let s := match (s.cap.get ch).assembly with
    | some n => s.sendParcel ch n
    | none => s
  let c := s.cap.get ch
  s.setCap ch { c with state := stateAfterPeriod c.periodMode c.inactive (s.chan.get ch).params.hangover }

/-- R89: a frame joins the running period; the P-th ends it. -/
def State.joinPeriod (s : State) (ch : LineNo) (f : Frame) : State :=
  let c := s.cap.get ch
  let p := (s.chan.get ch).params
  let s := match c.assembly with
    | some n => s.putBlock n p.coding c.frames f
    | none => s
  let s := s.setCap ch { c with frames := c.frames + 1 }
  if p.packing ≤ c.frames + 1 then s.endPeriod ch else s

/-- R85: the period step of a capture event. -/
def State.periodStep (s : State) (ch : LineNo) (mode : Mode) (active : Bool) (f : Frame) : State :=
  match (s.cap.get ch).state with
  | .closed => s
  | .packing => s.joinPeriod ch f
  | .sending => (s.startPeriod ch mode).joinPeriod ch f
  | .silent => if mode = .speech ∧ active = false then s else (s.startPeriod ch mode).joinPeriod ch f

/-- R84: the frame joins the history as its newest, the oldest beyond three is dropped, and the timestamp counter gains 80. -/
def State.appendHistory (s : State) (ch : LineNo) (f : Frame) : State :=
  let c := s.cap.get ch
  s.setCap ch { c with history := (f :: c.history).take 3, tsCounter := c.tsCounter + 80 }

/-- R81: the five steps of a capture event of an open channel. -/
def State.captureStep (s : State) (ch : LineNo) : State :=
  let mode := s.frameMode ch
  let f := s.captureFrame ch mode
  let active := frameActive (s.chan.get ch).params.vadThreshold f
  let c := s.cap.get ch
  let s := s.setCap ch { c with inactive := inactiveAfter mode active c.inactive }
  (s.periodStep ch mode active f).appendHistory ch f

/-- The capture event of a channel, when it is due; a CLOSED channel has none (R81). -/
def State.captureEvent (s : State) (ch : LineNo) : State :=
  s.takeEvent (.capture ch) fun s => if (s.chan.get ch).state = .closed then s else s.captureStep ch

/-- CAPTURE_EVENT (R81). -/
def execCaptureEvent (ch : LineNo) (s : State) : Host.Outcome State Fault Refusal := .next (s.captureEvent ch)

end Sys2Proof.Machine
end

