-- ==== Sys2Proof/Machine/Ports.lean ====
section
/-!
DEFINITION. Machine/Ports.lean: the port controller: the hook filter, seizure, breaks and makes, dial pulses and the port timer (R115 to R126).
-/
namespace Sys2Proof.Machine

/-- R116: the hook filter at one scan. -/
def Port.filterHook (p : Port) (raw : Bool) : Port :=
  if raw = p.filtered then { p with differing := 0 }
  else if p.filter ≤ p.differing + 1 then { p with filtered := raw, differing := 0 }
  else { p with differing := p.differing + 1 }

/-- R118, R119, R125: the seizure of an IDLE port. -/
def State.seize (s : State) (p : LineNo) : State :=
  (s.setPort p (s.port.get p).toOffhook).giveLineMark .seized p 0 0

/-- R123: the report of a pending digit, by its pulse count. -/
def State.reportDigit (s : State) (p : LineNo) : State :=
  let r := s.port.get p
  let n := r.pulses
  let s := s.setPort p { r with pulses := 0, gapCount := none }
  if n = 0 then s
  else if n ≤ 9 then s.giveLineMark .digitPulse p (BitVec.ofNat 16 n) (BitVec.ofNat 32 n)
  else if n = 10 then s.giveLineMark .digitPulse p 0 10
  else s.giveLineMark .dialFault p (BitVec.ofNat 16 n) 0

/-- R120: a break starts; its count first gains at the next instant's expiry (R117), so this instant's is no longer due. -/
def State.startBreak (s : State) (p : LineNo) : State :=
  let r := s.port.get p
  (s.setPort p { r with timing := r.ordered, breakCount := some 0, gapCount := none }).undue (.timer p)

/-- R122: a make ends a break of length `b`: a glitch, a dial pulse or a flash. A digit-gap count that starts here first gains at the
next instant's expiry (R117). -/
def State.makeBreak (s : State) (p : LineNo) (b : Nat) : State :=
  let r := { s.port.get p with breakCount := none }
  if b < r.timing.pulseMin then
    if 0 < r.pulses then (s.setPort p { r with gapCount := some 0 }).undue (.timer p) else s.setPort p r
  else if b < r.timing.flashMin then
    (s.setPort p { r with pulses := min 15 (r.pulses + 1), gapCount := some 0 }).undue (.timer p)
  else
    ((s.setPort p r).reportDigit p).giveLineMark .flash p (BitVec.ofNat 16 b) 0

/-- R115, R120, R122: what a scan of an OFFHOOK port does after filtering; `was` is the filtered level before it. -/
def State.offhookScan (s : State) (p : LineNo) (was : Bool) : State :=
  let r := s.port.get p
  if was = true ∧ r.filtered = false then s.startBreak p
  else if was = false ∧ r.filtered = true then
    match r.breakCount with
    | some b => s.makeBreak p b
    | none => s
  else s

/-- R115: a port's scan, by its state. -/
def State.scanStep (s : State) (p : LineNo) (hook trip : Bool) : State :=
  let r := s.port.get p
  match r.state with
  | .down => s
  | .idle =>
    let s := s.setPort p (r.filterHook hook)
    if (s.port.get p).filtered then s.seize p else s
  | .ringing => (s.setPort p (r.filterHook hook)).ringScan p trip
  | .offhook => (s.setPort p (r.filterHook hook)).offhookScan p r.filtered

/-- A port's line scan, when it is due, with the levels of HOOKn and TRIPn (R115). -/
def State.scanEvent (s : State) (p : LineNo) (hook trip : Bool) : State := s.takeEvent (.scan p) fun s => s.scanStep p hook trip

/-- LINE_SCAN (R115). -/
def execLineScan (p : LineNo) (hook trip : Bool) (s : State) : Host.Outcome State Fault Refusal := .next (s.scanEvent p hook trip)

/-- R121: the break has lasted hangup_min and the line is cleared. -/
def State.clearLine (s : State) (p : LineNo) : State :=
  let r := s.port.get p
  let s := s.setPort p { r with pulses := 0, breakCount := none, gapCount := none, state := .idle }
  (s.endTone p).giveLineMark .cleared p (BitVec.ofNat 16 r.pulses) (BitVec.ofNat 32 r.timing.hangupMin)

/-- R117: the break count's part of an expiry. -/
def State.expireBreak (s : State) (p : LineNo) : State :=
  let r := s.port.get p
  match r.breakCount with
  | none => s
  | some b => if r.timing.hangupMin ≤ b + 1 then s.clearLine p else s.setPort p { r with breakCount := some (b + 1) }

/-- R117: the digit-gap count's part of an expiry. -/
def State.expireGap (s : State) (p : LineNo) : State :=
  let r := s.port.get p
  match r.gapCount with
  | none => s
  | some g => if r.timing.digitGap ≤ g + 1 then s.reportDigit p else s.setPort p { r with gapCount := some (g + 1) }

/-- R117: a port timer expiry. -/
def State.timerStep (s : State) (p : LineNo) : State := (s.expireBreak p).expireGap p

/-- Whether the next expiry brings the break count to hangup_min (R117, R121). -/
def Port.clearsNext (r : Port) : Bool :=
  match r.breakCount with
  | none => false
  | some b => decide (r.timing.hangupMin ≤ b + 1)

/-- Whether the next expiry brings the digit-gap count to digit_gap (R117, R123). -/
def Port.gapEndsNext (r : Port) : Bool :=
  match r.gapCount with
  | none => false
  | some g => decide (r.timing.digitGap ≤ g + 1)

/-- A port timer expiry, when it is due (R117). -/
def State.timerEvent (s : State) (p : LineNo) : State := s.takeEvent (.timer p) fun s => s.timerStep p

/-- PORT_TIMER_EXPIRY (R117). -/
def execPortTimerExpiry (p : LineNo) (s : State) : Host.Outcome State Fault Refusal := .next (s.timerEvent p)

/-- CLEARED (R121): the port timer expiry that brings the break count to hangup_min; there is none while the count stands lower (log 4). -/
def execCleared (p : LineNo) (s : State) : Host.Outcome State Fault Refusal :=
  .next (if (s.port.get p).clearsNext then s.timerEvent p else s)

/-- DIGIT_GAP_EXPIRY (R123): the port timer expiry that brings the digit-gap count to digit_gap; there is none while the count stands
lower (log 4). -/
def execDigitGapExpiry (p : LineNo) (s : State) : Host.Outcome State Fault Refusal :=
  .next (if (s.port.get p).gapEndsNext then s.timerEvent p else s)

end Sys2Proof.Machine
end

