-- ==== Sys2Proof/Machine/Ticks.lean ====
section
/-!
DEFINITION. Machine/Ticks.lean: the cadence ticks (R132, R140, R150, R160). A port has at most one cadence run, since a ring run lives in
RINGING and a tone run in OFFHOOK (R127). The rows below CADENCE_TICK name one and the same event by what it brings about (log 4).
-/
namespace Sys2Proof.Machine

/-- R132: a cadence tick of a port's run: its ring run's if it has one, else its tone run's. -/
def State.tickStep (s : State) (p : LineNo) : State :=
  match (s.ring.get p).run with
  | some _ => s.ringTick p
  | none => s.toneTick p

/-- Whether a port's next tick ends its burst (R140). -/
def State.burstEndsNext (s : State) (p : LineNo) : Bool :=
  (s.ring.get p).sub == .burst && decide ((s.ring.get p).segment ≤ 1)

/-- Whether the identity hold keeps the engine from advancing at a port's next tick (R150): it lifts within the tick that ends the tail. -/
def State.heldNext (s : State) (p : LineNo) : Bool :=
  let i := s.ident.get p
  i.hold && !(i.status == .tail && decide (i.tail ≤ 1))

/-- Whether a port's next tick ends the current half of its run (R132, R140, R150). -/
def State.halfEndsNext (s : State) (p : LineNo) : Bool :=
  match (s.ring.get p).run with
  | some c =>
    match (s.ring.get p).sub with
    | .burst => decide (c.count ≤ 1)
    | .rest => decide (c.count ≤ 1) && !s.heldNext p
    | .ident => decide (c.count ≤ 1) && !s.heldNext p
    | _ => false
  | none =>
    match (s.tone.get p).run with
    | some c => decide (c.count ≤ 1)
    | none => false

/-- A cadence tick of a port's run, when it is due (R132). -/
def State.tickEvent (s : State) (p : LineNo) : State := s.takeEvent (.tick p) fun s => s.tickStep p

/-- CADENCE_TICK (R132). -/
def execCadenceTick (p : LineNo) (s : State) : Host.Outcome State Fault Refusal := .next (s.tickEvent p)

/-- CADENCE_ADVANCE (R132): the tick that ends the current half of a port's run (log 4). -/
def execCadenceAdvance (p : LineNo) (s : State) : Host.Outcome State Fault Refusal :=
  .next (if s.halfEndsNext p then s.tickEvent p else s)

/-- R139: a free grant passes to the head of the wait list; on a part in order no port waits while a grant is free (R138). -/
def State.passFree (s : State) : State :=
  if s.arb.waitList = [] then s
  else if s.arb.grantA = none then s.passGrant true
  else if s.arb.grantB = none then s.passGrant false
  else s

/-- GRANT_PASS (R139): the tick that ends a port's burst while another port waits, so that the released grant passes to the head of the
wait list within the event; a grant that is free while a port waits passes likewise (log 4). -/
def execGrantPass (p : LineNo) (s : State) : Host.Outcome State Fault Refusal :=
  .next (if s.burstEndsNext p && !s.arb.waitList.isEmpty && s.canTake (.tick p) then
      s.tickEvent p
    else if s.clock.running then s.passFree
    else s)

/-- IDENT_START (R150): the tick that brings the identity delay count to 0 (log 4). -/
def execIdentStart (p : LineNo) (s : State) : Host.Outcome State Fault Refusal :=
  let i := s.ident.get p
  .next (if (s.ring.get p).run.isSome && i.status == .pending && i.hold && decide (i.delay ≤ 1) then s.tickEvent p else s)

/-- IDENT_SENT (R150): the tick that brings the send count to 0 (log 4). -/
def execIdentSent (p : LineNo) (s : State) : Host.Outcome State Fault Refusal :=
  let i := s.ident.get p
  .next (if (s.ring.get p).run.isSome && i.status == .sending && decide (i.send ≤ 1) then s.tickEvent p else s)

/-- IDENT_TAIL_END (R150): the tick that brings the tail count to 0 (log 4). -/
def execIdentTailEnd (p : LineNo) (s : State) : Host.Outcome State Fault Refusal :=
  let i := s.ident.get p
  .next (if (s.ring.get p).run.isSome && i.status == .tail && decide (i.tail ≤ 1) then s.tickEvent p else s)

end Sys2Proof.Machine
end

