-- ==== Sys2Proof/Machine/Orders.lean ====
section
/-!
DEFINITION. Machine/Orders.lean: the fourteen orders and the order executor (R19, R23 to R27, R43, R73 to R76, R110 to R113, R135, R145,
R156, R158, R172 to R174).
An order answers the state it leaves and its answer; an answer that reports no change leaves the state as it was.
-/
namespace Sys2Proof.Machine

/-! ### Port orders (R110 to R113) -/

/-- PORT_UP (R110). -/
def State.orderPortUp (s : State) (p : LineNo) : State × Answer :=
  let r := s.port.get p
  if r.state = .down then
    (s.setPort p { r with state := .idle, filtered := false, differing := 0, breakCount := none, gapCount := none, pulses := 0 }, .done)
  else (s, .busy)

/-- R111: what PORT_DOWN stops in RINGING: the supply is left, identity ends without a mark (R147), and the ring run ends. -/
def State.dropRing (s : State) (p : LineNo) : State := ((s.leaveSupply p).dropIdent p).endRing p

/-- PORT_DOWN (R111). The output goes silent at the order itself (R109). -/
def State.orderPortDown (s : State) (p : LineNo) : State × Answer :=
  let s := match (s.port.get p).state with
    | .ringing => s.dropRing p
    | .offhook => s.endTone p
    | _ => s
  (s.setPort p { s.port.get p with
    state := .down, polarity := .forward, filtered := false, differing := 0, breakCount := none, gapCount := none, pulses := 0,
    output := 0 }, .done)

/-- SET_POLARITY (R112, R189); `value` is the byte given. An invalid value is BAD_PARAM in every state: R112 names it first. -/
def State.orderSetPolarity (s : State) (p : LineNo) (value : Byte) : State × Answer :=
  let r := s.port.get p
  if value ≠ 0 ∧ value ≠ 1 then (s, .badParam)
  else if r.state = .down then (s, .busy)
  else (s.setPort p { r with polarity := if value = 0 then .forward else .reversed }, .done)

/-- R113: the largest of 0, 4, 8 and 16 not above a filter value. -/
def filterInRange (v : Nat) : Nat := if v < 4 then 0 else if v < 8 then 4 else if v < 16 then 8 else 16

/-- R113: the four break values brought into range. -/
def BreakTiming.inRange (t : BreakTiming) : BreakTiming :=
  { pulseMin := clampNat t.pulseMin 10 40
    flashMin := clampNat t.flashMin 60 400
    hangupMin := clampNat t.hangupMin 300 2000
    digitGap := clampNat t.digitGap 100 800 }

/-- SET_HOOK_TIMING (R113). -/
def State.orderSetHookTiming (s : State) (p : LineNo) (filter : Nat) (t : BreakTiming) : State × Answer :=
  let f := filterInRange filter
  let u := t.inRange
  if u.pulseMin < u.flashMin ∧ u.flashMin < u.hangupMin then
    (s.setPort p { s.port.get p with filter := f, ordered := u }, answerChanged (f != filter || u != t))
  else (s, .badParam)

/-! ### Ringing and tone orders (R135, R145, R156, R158) -/

/-- The bytes of an area of a sheet. -/
def State.area (s : State) (n : CellNo) (off len : Nat) : List Byte := (List.range len).map fun i => s.cellByte n (off + i)

/-- RING (R135): cadence index, N, L and the identity offset in sheet `n` of `count` entries. -/
def State.orderRing (s : State) (p : LineNo) (n : CellNo) (count cadence freq len off : Nat) : State × Answer :=
  if (s.port.get p).state ≠ .idle then (s, .busy)
  else if 15 < cadence then (s, .badParam)
  else if 200 < len ∨ (0 < len ∧ inAnnex count off len = false) then (s, .badParam)
  else
    match (s.cadenceRecord cadence).start with
    | none => (s, .emptyCadence)
    | some run =>
      let f := clampNat freq 9 49
      (s.startRing p run f (s.area n off len), if f = freq then .started else .adjusted)

/-- RING_STOP (R145). -/
def State.orderRingStop (s : State) (p : LineNo) : State × Answer :=
  if (s.port.get p).state = .ringing then (s.stopRing p, .done) else (s, .busy)

/-- TONE (R156, R157); `override` is the overriding cadence index when one is given. -/
def State.orderTone (s : State) (p : LineNo) (index : Nat) (override : Option Nat) : State × Answer :=
  if (s.port.get p).state ≠ .offhook then (s, .busy)
  else if 15 < index then (s, .badParam)
  else
    let r := s.toneRecord index
    let cadence := override.getD r.cadence
    if 15 < cadence then (s, .badParam)
    else
      match (s.cadenceRecord cadence).start with
      | none => (s, .emptyCadence)
      | some run => (s.startTone p index cadence r run, if r.limited then .adjusted else .started)

/-- TONE_STOP (R158). -/
def State.orderToneStop (s : State) (p : LineNo) : State × Answer :=
  if (s.tone.get p).running then (s.endTone p, .done) else (s, .busy)

/-! ### Channel orders (R23 to R27, R73, R76, R43, R19) -/

/-- A CHANNEL_OPEN parameter block as its 20 bytes hold it (R189). -/
structure OpenBlock where
  coding : Byte
  packing : Nat
  redundancy : Nat
  baseFrames : Nat
  minFrames : Nat
  maxFrames : Nat
  steadyMargin : Nat
  steadyTrigger : Nat
  vadThreshold : Nat
  hangover : Nat
  playoutGain : Nat
  captureGain : Nat
  flags : Byte
  initSeq : Half
  initTs : Word
deriving DecidableEq, Repr

/-- The parameter block at an offset of a sheet (R189). -/
def State.openBlock (s : State) (n : CellNo) (off : Nat) : OpenBlock :=
  let byte := fun i => (s.cellByte n (off + i)).toNat
  { coding := s.cellByte n off, packing := byte 1, redundancy := byte 2, baseFrames := byte 3, minFrames := byte 4,
    maxFrames := byte 5, steadyMargin := byte 6, steadyTrigger := byte 7, vadThreshold := (s.cellHalf n (off + 8)).toNat,
    hangover := byte 10, playoutGain := byte 11, captureGain := byte 12, flags := s.cellByte n (off + 13),
    initSeq := s.cellHalf n (off + 14), initTs := s.cellWord n (off + 16) }

/-- R24: FFh takes the default in the six marked bytes. -/
def orDefault (v default : Nat) : Nat := if v = 255 then default else v

/-- The values of a block once defaults are taken, before any is brought into range (R24, R25). -/
def OpenBlock.raw (b : OpenBlock) (coding : Coding) : OpenParams :=
  { coding := coding, packing := b.packing, redundancy := b.redundancy, minFrames := orDefault b.minFrames 2,
    maxFrames := orDefault b.maxFrames 12, baseFrames := orDefault b.baseFrames 2, steadyMargin := b.steadyMargin,
    steadyTrigger := orDefault b.steadyTrigger 20, vadThreshold := b.vadThreshold, hangover := b.hangover,
    playoutGain := orDefault b.playoutGain 16, captureGain := orDefault b.captureGain 16, autoSteady := b.flags.getLsbD 0,
    muteDigits := b.flags.getLsbD 1, initSeq := b.initSeq, initTs := b.initTs }

/-- R25: the parameters brought into range, each step using the values that earlier steps produced. -/
def OpenParams.inRange (r : OpenParams) : OpenParams :=
  let packing := clampNat r.packing 1 r.coding.capacity
  let minFrames := clampNat r.minFrames 1 30
  { r with
    packing := packing
    redundancy := min (clampNat r.redundancy 0 3) (r.coding.capacity - packing)
    minFrames := minFrames
    maxFrames := clampNat r.maxFrames minFrames 30
    baseFrames := clampNat r.baseFrames 0 10
    steadyMargin := clampNat r.steadyMargin 0 10
    steadyTrigger := clampNat r.steadyTrigger 5 50
    vadThreshold := clampNat r.vadThreshold 0 8191
    hangover := clampNat r.hangover 0 50
    playoutGain := clampNat r.playoutGain 0 32
    captureGain := clampNat r.captureGain 0 32 }

/-- R26: the channel record after an open. -/
def Channel.opened (p : OpenParams) : Channel :=
  { Channel.reset with state := .waiting, target := clampNat p.baseFrames p.minFrames p.maxFrames, params := p }

/-- R80: the capture record after an open; the running period's own fields are left as they stood. -/
def Capture.opened (c : Capture) (p : OpenParams) : Capture :=
  { c with
    state := .silent, assembly := none, spurt := false, starving := false, inactive := 0, history := []
    nextSeq := p.initSeq, tsCounter := p.initTs }

/-- R26, R80, R128, R165: a channel opened; its port has no frame of it to play until its first frame boundary, and the far runs do not
outlive the opening (log 26). -/
def State.openChannel (s : State) (ch : LineNo) (p : OpenParams) : State :=
  let s := (s.setChan ch (Channel.opened p)).setCap ch ((s.cap.get ch).opened p)
  (s.setPort ch { s.port.get ch with played := [] }).setVerdict ch { s.verdict.get ch with reopened := true }

/-- CHANNEL_OPEN (R23): the parameter block at offset `off` of sheet `n` of `count` entries. -/
def State.orderChannelOpen (s : State) (ch : LineNo) (n : CellNo) (count off : Nat) : State × Answer :=
  if (s.chan.get ch).state ≠ .closed then (s, .alreadyOpen)
  else if inAnnex count off 20 = false then (s, .badParam)
  else
    let b := s.openBlock n off
    match codingOf b.coding with
    | none => (s, .badParam)
    | some coding =>
      let raw := b.raw coding
      (s.openChannel ch raw.inRange, answerChanged (raw.inRange != raw))

/-- R93: the capture side at a close. -/
def State.closeCapture (s : State) (ch : LineNo) : State :=
  let s := match (s.cap.get ch).assembly with
    | some n => s.handOver n stampReturned
    | none => s
  s.setCap ch { s.cap.get ch with state := .closed, assembly := none, spurt := false, starving := false, history := [] }

/-- R27, R78: an open channel closed: the list flushed, the assembly cell returned, the state CLOSED; the rest is kept. -/
def State.closeChannel (s : State) (ch : LineNo) : State :=
  let entries := (s.chan.get ch).list
  let s := (s.setChan ch { s.chan.get ch with list := [] }).dropRefs entries
  let s := s.closeCapture ch
  s.setChan ch { s.chan.get ch with state := .closed, hold := 0, excess := 0, trim := false }

/-- CHANNEL_CLOSE (R27). -/
def State.orderChannelClose (s : State) (ch : LineNo) : State × Answer :=
  if (s.chan.get ch).state = .closed then (s, .notOpen) else (s.closeChannel ch, .done)

/-- CHANNEL_STEADY (R73, R74). -/
def State.orderChannelSteady (s : State) (ch : LineNo) (explicit : Option Nat) : State × Answer :=
  let c := s.chan.get ch
  if c.state = .closed then (s, .notOpen)
  else
    let r := match c.mode with
      | .speech => s.enterSteady ch explicit causeOrder
      | .steady => s.reapplySteady ch explicit
    (r.1, answerChanged r.2)

/-- CHANNEL_SPEECH (R76). -/
def State.orderChannelSpeech (s : State) (ch : LineNo) : State × Answer :=
  let c := s.chan.get ch
  if c.state = .closed then (s, .notOpen)
  else
    match c.mode with
    | .speech => (s, .done)
    | .steady => (s.returnToSpeech ch, .done)

/-- The state codes of a snapshot (R190). -/
def ChanState.code : ChanState → Byte
  | .closed => 0
  | .waiting => 1
  | .flowing => 2
  | .gap => 3

/-- The mode codes of a snapshot (R190). -/
def Mode.code : Mode → Byte
  | .speech => 0
  | .steady => 1

/-- The 64-byte snapshot block of a channel (R43, R190). -/
def Channel.snapshot (c : Channel) : List Byte :=
  (List.range 12).flatMap (fun k => bytes16 (c.counters.getD k 0)) ++ bytes16 (c.rollover.setWidth 16) ++
  bytes16 (BitVec.ofNat 16 c.j16) ++ [byteOf c.target, byteOf (c.steady.getD 0), byteOf c.list.length, c.state.code, c.mode.code] ++
  List.replicate 31 0

/-- R43: every counter and every rollover flag of a channel cleared. -/
def Channel.clearCounters (c : Channel) : Channel := { c with counters := List.replicate 12 0, rollover := 0 }

/-- SNAPSHOT (R43): the block at offset `off` of sheet `n` of `count` entries. -/
def State.orderSnapshot (s : State) (ch : LineNo) (n : CellNo) (count off : Nat) (clear : Bool) : State × Answer :=
  if inAnnex count off 64 = false then (s, .badParam)
  else
    let c := s.chan.get ch
    let s := s.putCell n off c.snapshot
    (if clear then s.setChan ch c.clearCounters else s, .done)

/-- SET_RESERVE (R19). -/
def State.orderSetReserve (s : State) (v : Nat) : State × Answer :=
  ({ s with ex := { s.ex with reserve := min v 4 } }, answerChanged (decide (4 < v)))

/-! ### The order executor (R172 to R174) -/

/-- An order with a target: BAD_TARGET when it is above 3 (R174). -/
def State.withTarget (s : State) (t : Nat) (order : LineNo → State × Answer) : State × Answer :=
  match lineOf t with
  | none => (s, .badTarget)
  | some p => order p

/-- R173 steps 1 and 2: entry k of sheet `n` of `count` entries is judged and carried out by its order's rule, with the fields R189
gives it; a code that is no order is UNKNOWN. -/
def State.runOrder (s : State) (n : CellNo) (count k : Nat) : State × Answer :=
  let byte := fun i => (s.entryByte n k i).toNat
  let half := fun i => (s.entryHalf n k i).toNat
  let target := byte 1
  match byte 0 with
  | 0x01 => s.withTarget target s.orderPortUp
  | 0x02 => s.withTarget target s.orderPortDown
  | 0x03 => s.withTarget target fun p => s.orderSetPolarity p (s.entryByte n k 2)
  | 0x04 => s.withTarget target fun p =>
      s.orderSetHookTiming p (byte 2) { pulseMin := half 4, flashMin := half 6, hangupMin := half 8, digitGap := half 10 }
  | 0x05 => s.withTarget target fun p => s.orderRing p n count (byte 2) (byte 3) (byte 4) (half 6)
  | 0x06 => s.withTarget target s.orderRingStop
  | 0x07 => s.withTarget target fun p => s.orderTone p (byte 2) (if (s.entryByte n k 3).getLsbD 0 then some (byte 4) else none)
  | 0x08 => s.withTarget target s.orderToneStop
  | 0x09 => s.withTarget target fun ch => s.orderChannelOpen ch n count (half 2)
  | 0x0A => s.withTarget target s.orderChannelClose
  | 0x0B => s.withTarget target fun ch => s.orderChannelSteady ch (if (s.entryByte n k 2).getLsbD 0 then some (byte 3) else none)
  | 0x0C => s.withTarget target s.orderChannelSpeech
  | 0x0D => s.withTarget target fun ch => s.orderSnapshot ch n count (half 4) ((s.entryByte n k 2).getLsbD 0)
  | 0x0E => s.orderSetReserve (byte 2)
  | _ => (s, .unknown)

/-- R173: one entry: its order runs, and its answer is written into its answer byte. -/
def State.runEntry (s : State) (n : CellNo) (count k : Nat) : State :=
  let r := s.sweepWork.runOrder n count k
  r.1.putCell n (32 + 16 * k + 15) [r.2.code]

/-- R173: entries from number k on, `left` of them, in ascending order. -/
def State.runEntries (s : State) (n : CellNo) (count : Nat) : Nat → Nat → State
  | 0, _ => s
  | left + 1, k => State.runEntries (s.runEntry n count k) n count left (k + 1)

/-- R173: the dispatch of a posted sheet: refused with BAD_SHEET, or run entry by entry and handed over as ANSWERED. -/
def State.runSheet (s : State) (n : CellNo) : State :=
  let count := (s.cellByte n 0).toNat
  if count = 0 ∨ 16 < count then s.refuseCell n reasonBadSheet
  else (s.runEntries n count count 0).handOver n stampAnswered

end Sys2Proof.Machine
end

