-- ==== Sys2Proof/Machine/Sweep.lean ====
section
/-!
DEFINITION. Machine/Sweep.lean: the sweep of the exchange unit: takes, dispatch, clashes and the idle sweep (R8 to R12, R17, R29).
-/
namespace Sys2Proof.Machine

/-- R29: the validation of a parcel header: the reason of the first test that fails, or the channel and coding of a valid one. -/
def State.validateParcel (s : State) (h : ParcelHeader) : Except Byte (LineNo × Coding) :=
  match lineOf h.channel with
  | none => .error reasonBadChannel
  | some ch =>
    if (s.chan.get ch).state = .closed then .error reasonClosed
    else
      match h.coding with
      | none => .error reasonBadCoding
      | some coding =>
        if h.primary = 0 ∨ coding.capacity < h.primary + h.redundant then .error reasonBadCount
        else if h.lags.any (fun l => l == 0 || decide (15 < l)) then .error reasonBadLag
        else .ok (ch, coding)

/-- R10: the dispatch of a posted parcel. -/
def State.dispatchParcel (s : State) (n : CellNo) : State :=
  let h := s.parcelHeader n
  match s.validateParcel h with
  | .error reason => s.refuseCell n reason
  | .ok (ch, coding) => s.arrive ch n coding h

/-- R17: a GRANTED cell joins the end of the spare stock, or is returned at once if the stock holds 32. -/
def State.joinSpare (s : State) (n : CellNo) : State :=
  if s.ex.spare.length < 32 then ({ s with ex := { s.ex with spare := s.ex.spare ++ [n] } }).setRole n .spare
  else s.handOver n stampReturned

/-- R10: a taken cell dispatched by the kind its stamp gave. -/
def State.dispatch (s : State) (n : CellNo) (posted : Byte) : State :=
  if posted = stampPostedParcel then s.dispatchParcel n
  else if posted = stampPostedSheet then s.runSheet n
  else s.joinSpare n

/-- The role a cell is taken in; dispatch settles it (R13). A parcel's channel is that of its header, or 0 until it is refused. -/
def State.roleAtTake (s : State) (n : CellNo) (posted : Byte) : Role :=
  if posted = stampPostedParcel then .parcel ((lineOf (s.cellByte n 0).toNat).getD 0) 0
  else if posted = stampPostedSheet then .sheet
  else .spare

/-- R9: a posted cell taken: 21h written, kept with its clash flag clear, TAKE on POSTS, and dispatched. -/
def State.takeCell (s : State) (n : CellNo) (posted : Byte) : State :=
  let s := s.sweepWork
  let s := s.putByte n.val stampKept
  let s := s.setKept n { role := s.roleAtTake n posted, clash := false }
  let s := s.setTally .posts (tallyTake s.ex.posts)
  s.dispatch n posted

/-- R12: a posting stamp found on a kept cell gives a STAMP_CLASH mark once per keeping. -/
def State.clash (s : State) (n : CellNo) (k : Kept) (posted : Byte) : State :=
  if k.clash then s
  else
    let s := s.sweepWork
    (s.setKept n { k with clash := true }).giveMark
      { kind := .stampClash, line := 0xFF, detail16 := BitVec.ofNat 16 n.val, time := s.now, detail32 := posted.setWidth 32 }

/-- One of the part's other events taken (R8). -/
def State.partEvent (s : State) : PartEvent → State
  | .frameBoundary ch => s.frameEvent ch
  | .farFrame p => s.farFrameEvent p
  | .captureEvent ch => s.captureEvent ch
  | .lineVerdict p => s.verdictEvent p
  | .toneTrigger ch cause => s.triggerEvent ch cause
  | .lineScan p hook trip => s.scanEvent p hook trip
  | .portTimer p => s.timerEvent p
  | .cadenceTick p => s.tickEvent p
  | .ringDrive p => s.driveEvent p
  | .markWriter => s.markEvent

/-- R8: the events that fall just before a stamp is examined (log 5). -/
def State.eventsBefore (s : State) (between : List (CellNo × PartEvent)) (n : CellNo) : State :=
  between.foldl (fun s e => if e.1 = n then s.partEvent e.2 else s) s

/-- R8, R9, R12: one stamp examined; the second component says whether any cell has been taken so far. -/
def State.examine (between : List (CellNo × PartEvent)) (acc : State × Bool) (n : CellNo) : State × Bool :=
  let s := acc.1.eventsBefore between n
  let posted := s.stamp n
  if isPosting posted then
    match s.keptAt n.val with
    | some k => (s.clash n k posted, acc.2)
    | none => (s.takeCell n posted, true)
  else (s, acc.2)

/-- R8, R11: a sweep: all 126 stamps in ascending order, and CLEAR on POSTS at the end of one that took no cell. -/
def State.sweepAll (s : State) (between : List (CellNo × PartEvent)) : State :=
  let r := (List.finRange 126).foldl (State.examine between) (s, false)
  if r.2 then r.1 else r.1.setTally .posts 0

/-- R8: what happens at a sweep timer expiry: a sweep if POSTS is above 0. `work` and `between` are the operands of log 5. -/
def State.sweepStep (s : State) (work : List (List (Four Sample))) (between : List (CellNo × PartEvent)) : State :=
  if s.ex.posts = 0 then s
  else
    let s := ({ s with clock := { s.clock with work := work } }).sweepAll between
    { s with clock := { s.clock with work := [] } }

/-- SWEEP (R8): the expiry of the sweep timer. -/
def execSweep (work : List (List (Four Sample))) (between : List (CellNo × PartEvent)) (s : State) : Host.Outcome State Fault Refusal :=
  .next (s.takeEvent .sweep fun s => s.sweepStep work between)

end Sys2Proof.Machine
end

