-- ==== Sys2Proof/Machine/Dispatch.lean ====
section
/-!
DEFINITION. Machine/Dispatch.lean: one arm for each command.
-/
namespace Sys2Proof.Machine

def exec (i : Instr) (s : State) : Host.Outcome State Fault Refusal :=
  match i with
  | .powerOnReset ram => Sys2Proof.Machine.execPowerOnReset ram s
  | .softReset lanes data => Sys2Proof.Machine.execSoftReset lanes data s
  | .run lanes data => Sys2Proof.Machine.execRun lanes data s
  | .guardClear lanes data => Sys2Proof.Machine.execGuardClear lanes data s
  | .attnctlWrite lanes data => Sys2Proof.Machine.execAttnctlWrite lanes data s
  | .peek t => Sys2Proof.Machine.execPeek t s
  | .add t => Sys2Proof.Machine.execAdd t s
  | .take t => Sys2Proof.Machine.execTake t s
  | .clear t => Sys2Proof.Machine.execClear t s
  | .windowWriteDiscarded half lanes data => Sys2Proof.Machine.execWindowWriteDiscarded half lanes data s
  | .hostMemoryWrite half lanes data => Sys2Proof.Machine.execHostMemoryWrite half lanes data s
  | .sweep work between => Sys2Proof.Machine.execSweep work between s
  | .frameBoundary ch => Sys2Proof.Machine.execFrameBoundary ch s
  | .farFrame p => Sys2Proof.Machine.execFarFrame p s
  | .captureEvent ch => Sys2Proof.Machine.execCaptureEvent ch s
  | .lineVerdict p => Sys2Proof.Machine.execLineVerdict p s
  | .toneTrigger ch cause => Sys2Proof.Machine.execToneTrigger ch cause s
  | .lineScan p hook trip => Sys2Proof.Machine.execLineScan p hook trip s
  | .portTimerExpiry p => Sys2Proof.Machine.execPortTimerExpiry p s
  | .cleared p => Sys2Proof.Machine.execCleared p s
  | .digitGapExpiry p => Sys2Proof.Machine.execDigitGapExpiry p s
  | .cadenceTick p => Sys2Proof.Machine.execCadenceTick p s
  | .cadenceAdvance p => Sys2Proof.Machine.execCadenceAdvance p s
  | .grantPass p => Sys2Proof.Machine.execGrantPass p s
  | .ringDriveToggle p => Sys2Proof.Machine.execRingDriveToggle p s
  | .identStart p => Sys2Proof.Machine.execIdentStart p s
  | .identSent p => Sys2Proof.Machine.execIdentSent p s
  | .identTailEnd p => Sys2Proof.Machine.execIdentTailEnd p s
  | .markWriterBoundary => Sys2Proof.Machine.execMarkWriterBoundary s
  | .samplePeriod line => Sys2Proof.Machine.execSamplePeriod line s

end Sys2Proof.Machine
end

