-- ==== Sys2Proof/Safety.lean ====
section
/-!
DEFINITION. Safety.lean: what counts as a state in order, in the manual's own terms: the promises that the rules make about every state
between two events, and what it takes for a run to be punctual. Claims about "every step" are stated with these.
-/
namespace Sys2Proof.Machine

/-! ### Punctual runs (log 3, log 19) -/

/-- A command is punctual in a state if it lets no instant pass before the events of the last one have been taken (log 19). -/
def State.punctual (s : State) (c : Instr) : Bool :=
  match c with
  | .samplePeriod _ => s.quiet
  | _ => true

/-! ### Exchange memory (R1) -/

/-- Exchange memory is in its canonical form. -/
def State.memoryOk (s : State) : Prop := s.mem.wf = true

/-! ### Bounds of the stock and of the mark writer (R17, R19, R175, R177) -/

/-- The spare stock holds at most 32 cells, the reserve is at most 4, the open sheet holds fewer than 28 marks, the overflow queue holds
at most 16 marks and none while a sheet is open, and the lost count is at most 65,535. -/
def State.stockOk (s : State) : Prop :=
  s.ex.spare.length ≤ 32 ∧ s.ex.reserve ≤ 4 ∧ s.marks.count < 28 ∧ s.marks.queue.length ≤ 16 ∧ s.marks.lost ≤ 65535 ∧
  (s.marks.sheet ≠ none → s.marks.queue = [])

/-! ### Bounds of the capture sides (R25, R84, R86, R89) -/

/-- A channel packs at least one frame and its packing and redundancy fit a parcel of its coding; a period under way has fewer frames than
the packing; and no frame of a history, and no line frame, has more than 80 samples. -/
def State.captureOk (s : State) : Prop :=
  ∀ ch : LineNo,
    let p := (s.chan.get ch).params
    let c := s.cap.get ch
    1 ≤ p.packing ∧ p.packing + p.redundancy ≤ p.coding.capacity ∧ (c.state = .packing → c.frames < p.packing) ∧
    (∀ f ∈ c.history, f.length ≤ 80) ∧ (s.port.get ch).lineFrame.length ≤ 80

/-! ### Ports, tones and the ring supply (R107, R117, R133, R138, R155) -/

/-- What the rules promise of one line's port, tone and ring contexts. -/
def State.lineOk (s : State) (p : LineNo) : Prop :=
  ((s.port.get p).state ≠ .offhook → (s.port.get p).breakCount = none ∧ (s.port.get p).gapCount = none) ∧
  ((s.tone.get p).running = true → (s.port.get p).state = .offhook) ∧
  (s.tone.get p).run.isSome = (s.tone.get p).running ∧
  ((s.ring.get p).run.isSome = true ↔ (s.port.get p).state = .ringing) ∧
  ((s.ring.get p).sub ≠ .none ↔ (s.port.get p).state = .ringing) ∧
  ((s.ring.get p).sub = .burst ↔ s.arb.grantA = some p ∨ s.arb.grantB = some p) ∧
  ((s.ring.get p).sub = .waitGrant ↔ p ∈ s.arb.waitList) ∧
  ¬ (s.arb.grantA = some p ∧ s.arb.grantB = some p)

/-- The ports and the ring supply in order: every line is, no port waits twice, and none waits while a grant is free. -/
def State.linesOk (s : State) : Prop :=
  (∀ p : LineNo, s.lineOk p) ∧ s.arb.waitList.Nodup ∧
  (s.arb.waitList ≠ [] → s.arb.grantA ≠ none ∧ s.arb.grantB ≠ none)

/-! ### Playout windows (R21, R40, R67, R70) -/

/-- What the rules promise of a channel record: entries on the grid of the cursor in slots 0..31, ascending; no entry outside FLOWING;
no steady frames and no hold in SPEECH; no excess run and no trim in STEADY. -/
def Channel.windowOk (c : Channel) : Prop :=
  (∀ e ∈ c.list, rawDistance e.ts c.cursor % 80 = 0 ∧ 0 ≤ rawDistance e.ts c.cursor ∧ rawDistance e.ts c.cursor ≤ 2480) ∧
  c.list.Pairwise (fun a b => rawDistance a.ts c.cursor < rawDistance b.ts c.cursor) ∧
  (c.state ≠ .flowing → c.list = []) ∧
  (c.mode = .speech → c.steady = none ∧ c.hold = 0) ∧
  (c.mode = .steady → c.steady ≠ none ∧ c.excess = 0 ∧ c.trim = false)

/-- Every channel's window is in order. -/
def State.windowsOk (s : State) : Prop := ∀ ch : LineNo, (s.chan.get ch).windowOk

/-! ### The keeping (R13, R17, R39) -/

/-- The role a kept cell serves in. -/
def State.roleAt (s : State) (n : CellNo) : Option Role := (s.keptAt n.val).map Kept.role

/-- The reference count of a kept parcel cell (R39). -/
def State.refsAt (s : State) (n : CellNo) : Option Nat :=
  match s.roleAt n with
  | some (.parcel _ refs) => some refs
  | _ => none

/-- The channel of a kept parcel cell (R13). -/
def State.parcelChannel (s : State) (n : CellNo) : Option LineNo :=
  match s.roleAt n with
  | some (.parcel ch _) => some ch
  | _ => none

/-- How many playout entries name a cell. -/
def State.namings (s : State) (n : CellNo) : Nat :=
  ((List.finRange 4).map fun ch => (s.chan.get ch).list.countP fun e => e.cell == n).sum

/-- What the rules promise of the keeping between two events: it is a table of cells; a parcel cell's reference count is the number of
entries naming it, and an entry names a kept parcel cell of its channel; the spares are the stock, each once; assembly cells and the open
mark sheet are those their blocks hold; no sheet outlives its dispatch; and a channel and its capture side are open together, with an
assembly cell in PACKING alone. -/
def State.keepingOk (s : State) : Prop :=
  tableRising s.ex.keeping = true ∧ (∀ k ∈ s.ex.keeping, k.1 < 126) ∧
  (∀ n : CellNo, s.refsAt n = none ∨ s.refsAt n = some (s.namings n)) ∧
  (∀ ch : LineNo, ∀ e ∈ (s.chan.get ch).list, s.parcelChannel e.cell = some ch) ∧
  (∀ n : CellNo, s.roleAt n = some .spare ↔ n ∈ s.ex.spare) ∧ s.ex.spare.Nodup ∧
  (∀ n : CellNo, ∀ ch : LineNo, s.roleAt n = some (.assembly ch) ↔ (s.cap.get ch).assembly = some n) ∧
  (∀ n : CellNo, s.roleAt n = some .markSheet ↔ s.marks.sheet = some n) ∧
  (∀ n : CellNo, s.roleAt n ≠ some .sheet) ∧
  (∀ ch : LineNo, ((s.chan.get ch).state = .closed ↔ (s.cap.get ch).state = .closed) ∧
    ((s.chan.get ch).state = .closed → (s.chan.get ch).list = []) ∧
    ((s.cap.get ch).state ≠ .packing → (s.cap.get ch).assembly = none))

/-! ### Commands by what they are -/

/-- The commands that are events of the part itself: they happen in RUNNING alone (R183). -/
def partEvent : Instr → Bool
  | .powerOnReset _ => false
  | .softReset _ _ => false
  | .run _ _ => false
  | .guardClear _ _ => false
  | .attnctlWrite _ _ => false
  | .peek _ => false
  | .add _ => false
  | .take _ => false
  | .clear _ => false
  | .windowWriteDiscarded _ _ _ => false
  | .hostMemoryWrite _ _ _ => false
  | .sweep _ _ => true
  | .frameBoundary _ => true
  | .farFrame _ => true
  | .captureEvent _ => true
  | .lineVerdict _ => true
  | .toneTrigger _ _ => true
  | .lineScan _ _ _ => true
  | .portTimerExpiry _ => true
  | .cleared _ => true
  | .digitGapExpiry _ => true
  | .cadenceTick _ => true
  | .cadenceAdvance _ => true
  | .grantPass _ => true
  | .ringDriveToggle _ => true
  | .identStart _ => true
  | .identSent _ => true
  | .identTailEnd _ => true
  | .markWriterBoundary => true
  | .samplePeriod _ => true

end Sys2Proof.Machine
end

