-- ==== Sys2Proof/Certificates/Slice0/Obligations.lean ====
section
/-!
DEFINITION. Certificates/Slice0/Obligations.lean: the statements for the provers, from the manual's numbered rules.
-/
section

open Sys2Proof Sys2Proof.Machine

/-! ### The step, the resets and the control window -/

/-- One step is `exec` of the command at the front of the queue on the state with the queue's rest. Nothing waits on an empty queue, and
the part then stands still: that clause is the model's choice (log 8). -/
def Obligations.StepTakesTheFrontCommand : Prop :=
  (∀ (c : Instr) (rest : List Instr) (s : State), step { s with pending := c :: rest } = exec c { s with pending := rest }) ∧
  ∀ s : State, s.pending = [] → step s = .next s

/-- R20, R22, R44, R78, R80, R94, R108, R134, R155, R171, R175, R184, R186: what the manual states of every block after a power-on reset,
every field to which it gives a value. That nothing is due is the model's form of its timers and grid standing still (log 3). -/
def Obligations.ResetHoldsThePowerOnValues : Prop :=
  let s := State.reset
  let zero : ToneRun := { count := 0, fired := false }
  let timing : BreakTiming := { pulseMin := 20, flashMin := 100, hangupMin := 800, digitGap := 300 }
  s.clock.running = false ∧ s.clock.sc = 0 ∧ s.due = Due.reset ∧
  s.ex = { posts := 0, ready := 0, keeping := [], spare := [], reserve := 1, guard := false, guardAddr := 0 } ∧
  s.bus.held = false ∧ s.bus.enReady = false ∧ s.bus.enGuard = false ∧
  s.marks = { sheet := none, count := 0, queue := [], lost := 0 } ∧
  s.arb = { grantA := none, grantB := none, waitList := [] } ∧
  ∀ p : LineNo,
    ((s.chan.get p).state = .closed ∧ (s.chan.get p).mode = .speech ∧ (s.chan.get p).cursor = 0 ∧ (s.chan.get p).list = [] ∧
      (s.chan.get p).j16 = 0 ∧ (s.chan.get p).prevTransit = none ∧ (s.chan.get p).target = 2 ∧ (s.chan.get p).steady = none ∧
      (s.chan.get p).hold = 0 ∧ (s.chan.get p).excess = 0 ∧ (s.chan.get p).lateRun = 0 ∧ (s.chan.get p).earlyRun = 0 ∧
      (s.chan.get p).conceal = 0 ∧ (s.chan.get p).trim = false ∧ (s.chan.get p).last = List.replicate 80 0 ∧
      (s.chan.get p).params = {
        coding := .mu, packing := 1, redundancy := 0, minFrames := 2, maxFrames := 12, baseFrames := 2, steadyMargin := 0,
        steadyTrigger := 20, vadThreshold := 0, hangover := 0, playoutGain := 16, captureGain := 16, autoSteady := false,
        muteDigits := false, initSeq := 0, initTs := 0 } ∧
      (s.chan.get p).counters = List.replicate 12 0 ∧ (s.chan.get p).rollover = 0) ∧
    ((s.cap.get p).state = .closed ∧ (s.cap.get p).assembly = none ∧ (s.cap.get p).spurt = false ∧ (s.cap.get p).starving = false ∧
      (s.cap.get p).inactive = 0 ∧ (s.cap.get p).nextSeq = 0 ∧ (s.cap.get p).tsCounter = 0 ∧ (s.cap.get p).history = []) ∧
    ((s.port.get p).state = .down ∧ (s.port.get p).polarity = .forward ∧ (s.port.get p).filter = 8 ∧
      (s.port.get p).ordered = timing ∧ (s.port.get p).timing = timing ∧ (s.port.get p).filtered = false ∧
      (s.port.get p).differing = 0 ∧ (s.port.get p).breakCount = none ∧ (s.port.get p).gapCount = none ∧
      (s.port.get p).pulses = 0 ∧ (s.port.get p).output = 0 ∧
      s.feedActive p = false ∧ s.revActive p = false ∧ s.ringDriven p = false) ∧
    ((s.ring.get p).sub = .none ∧ (s.ring.get p).run = none ∧ (s.ring.get p).freq = 24 ∧ (s.ring.get p).trip = 0 ∧
      (s.ring.get p).bursts = 0 ∧ (s.ident.get p).status = .none ∧ (s.ident.get p).buffer = []) ∧
    s.tone.get p = {
      running := false, index := 0, cadence := 0, f1 := 0, a1 := 0, f2 := 0, a2 := 0, inc1 := 0, inc2 := 0, ph1 := 0, ph2 := 0,
      run := none, half := false } ∧
    ((s.verdict.get p).candidate = none ∧ (s.verdict.get p).candRun = 0 ∧ (s.verdict.get p).digitOn = none ∧
      (s.verdict.get p).offRun = 0 ∧ (s.verdict.get p).onCount = 0 ∧ (s.verdict.get p).lineAnswer = zero ∧
      (s.verdict.get p).lineCalling = zero ∧ (s.verdict.get p).farAnswer = zero ∧ (s.verdict.get p).farCalling = zero ∧
      (s.verdict.get p).lastFar = none)

/-- R186, R5: a power-on reset puts every block at its power-on values and leaves in memory what the RAM happens to hold: each address
holds the last byte that `ram` gives it. While RST# is low, host reads return 0000h, ATTN# is released and FEEDn, REVn and RINGn are inactive
at every port. That the blocks hold those values, and memory what it held, from the falling edge on is the model's form (log 10); that an
address `ram` does not name reads as 00h is the model's choice (log 1, log 2). -/
def Obligations.PowerOnResetLeavesWhatTheRamHolds : Prop :=
  (∀ (ram : List (Nat × Byte)) (s : State), ∃ m : Memory,
     exec (.powerOnReset (some ram)) s = .next { State.reset with mem := m, pending := s.pending } ∧ m.wf = true ∧
     ∀ a, a < 65536 → m.read a = (ram.reverse.lookup a).getD unlistedByte) ∧
  (∀ s : State, exec (.powerOnReset none) s = .next
     { State.reset with bus := { State.reset.bus with held := true }, mem := s.mem, pending := s.pending }) ∧
  ∀ s : State, s.bus.held = true →
    s.attnAsserted = false ∧ (∀ window half, s.busRead window half = 0) ∧
    ∀ p : LineNo, s.feedActive p = false ∧ s.revActive p = false ∧ s.ringDriven p = false

/-- R182, R16, R183, R185, R186: RUNCTL reads RUN and GUARD, and a write acts on the fields of an enabled low lane alone: a 1 in RESET is a
soft reset, whatever else it carries, which leaves exchange memory as it stands and every block at its reset values; else a 1 in GUARD clears
GUARD, GUARDADDR keeping its address, and a 1 in RUN starts a HALTED part with SC, the grid and every timer at their beginning, and does
nothing to a RUNNING one. While RST# is low the write is discarded. The three rows are one and the same write (log 18). -/
def Obligations.RunctlWriteActsOnItsFields : Prop :=
  ∀ (lanes : Lanes) (data : Half) (s : State) (c : Instr),
    (c = .softReset lanes data ∨ c = .run lanes data ∨ c = .guardClear lanes data) →
    (∀ i, s.runctl.getLsbD i = (i == 0 && s.clock.running || i == 2 && s.ex.guard)) ∧
    (s.bus.held = true ∨ lanes.low = false → exec c s = .next s) ∧
    (data.getLsbD 0 = false → data.getLsbD 1 = false → data.getLsbD 2 = false → exec c s = .next s) ∧
    (s.bus.held = false → lanes.low = true →
      (data.getLsbD 1 = true → exec c s = .next { State.reset with mem := s.mem, pending := s.pending }) ∧
      (data.getLsbD 1 = false → data.getLsbD 0 = true → s.clock.running = false → exec c s = .next
        { s with
          clock := { running := true, sc := 0, phase := 0, boundaries := 0, boundarySc := 0, work := [] }
          due := Due.reset
          ex := { s.ex with guard := s.ex.guard && !data.getLsbD 2 } }) ∧
      (data.getLsbD 1 = false → data.getLsbD 0 = false ∨ s.clock.running = true → exec c s = .next
        { s with ex := { s.ex with guard := s.ex.guard && !data.getLsbD 2 } }))

/-- R184, R109, R137, R186: an ATTNCTL write sets the two enables of an enabled low lane and changes nothing else; while RST# is low it is
discarded. ATTNCTL reads both enables back, and ATTN# is asserted while READY is above 0 and EN_READY is 1, or GUARD is 1 and EN_GUARD is 1.
FEEDn is active in IDLE, RINGING and OFFHOOK, REVn while the polarity is REVERSE outside DOWN, and RINGn is high in BURST alone, while the
wave is; all of them with RST# high. -/
def Obligations.AttnctlWriteSetsTheEnables : Prop :=
  (∀ (lanes : Lanes) (data : Half) (s : State),
    (s.bus.held = true → exec (.attnctlWrite lanes data) s = .next s) ∧
    (s.bus.held = false → exec (.attnctlWrite lanes data) s = .next
      { s with bus := { s.bus with
          enReady := if lanes.low then data.getLsbD 0 else s.bus.enReady
          enGuard := if lanes.low then data.getLsbD 1 else s.bus.enGuard } })) ∧
  ∀ s : State,
    (∀ i, s.attnctl.getLsbD i = (i == 0 && s.bus.enReady || i == 1 && s.bus.enGuard)) ∧
    (s.bus.held = false →
      (s.attnAsserted = true ↔ s.ex.ready ≠ 0 ∧ s.bus.enReady = true ∨ s.ex.guard = true ∧ s.bus.enGuard = true) ∧
      ∀ p : LineNo,
        (s.feedActive p = true ↔ (s.port.get p).state = .idle ∨ (s.port.get p).state = .ringing ∨ (s.port.get p).state = .offhook) ∧
        (s.revActive p = true ↔ (s.port.get p).polarity = .reversed ∧ (s.port.get p).state ≠ .down) ∧
        (s.ringDriven p = true ↔ (s.port.get p).state = .ringing ∧ (s.ring.get p).sub = .burst ∧ (s.ring.get p).level = true))

/-- R2, R3, R6, R181, R182, R184, R186: with RST# high, what a host read returns at each half-word address of the control window and of
exchange memory; which command a read at each operation address is, PEEK, ADD, TAKE and CLEAR from 10000h on POSTS and from 10008h on
READY and none elsewhere, and that this command returns what the read returns; and that a window write is discarded but at RUNCTL and
ATTNCTL. -/
def Obligations.ControlWindowDecodesItsAddresses : Prop :=
  (∀ s : State, s.bus.held = false →
    (∀ half : BitVec 15, half.toNat < 4 → s.busRead true half = s.ex.posts.setWidth 16) ∧
    (∀ half : BitVec 15, 4 ≤ half.toNat → half.toNat < 8 → s.busRead true half = s.ex.ready.setWidth 16) ∧
    s.busRead true 8 = 0x3A41 ∧
    (∀ i, (s.busRead true 9).getLsbD i = (i == 0 && s.clock.running || i == 2 && s.ex.guard)) ∧
    (∀ i, (s.busRead true 10).getLsbD i = (i == 0 && s.bus.enReady || i == 1 && s.bus.enGuard)) ∧
    s.busRead true 11 = s.ex.guardAddr ∧
    (∀ half : BitVec 15, 12 ≤ half.toNat → s.busRead true half = 0) ∧
    (∀ half : BitVec 15, s.busRead false half = s.byteAt (2 * half.toNat + 1) ++ s.byteAt (2 * half.toNat))) ∧
  (windowReadCommand 0 = some (.peek .posts) ∧ windowReadCommand 1 = some (.add .posts) ∧
    windowReadCommand 2 = some (.take .posts) ∧ windowReadCommand 3 = some (.clear .posts) ∧
    windowReadCommand 4 = some (.peek .ready) ∧ windowReadCommand 5 = some (.add .ready) ∧
    windowReadCommand 6 = some (.take .ready) ∧ windowReadCommand 7 = some (.clear .ready) ∧
    ∀ half : BitVec 15, 8 ≤ half.toNat → windowReadCommand half = none) ∧
  (∀ (half : BitVec 15) (c : Instr) (s : State), windowReadCommand half = some c →
    ∃ t, exec c s = .next t ∧ t.bus = { s.bus with readData := s.busRead true half }) ∧
  ∀ (half : BitVec 15) (lanes : Lanes) (data : Half) (s : State), half.toNat ≠ 9 → half.toNat ≠ 10 →
    exec (.windowWriteDiscarded half lanes data) s = .next s

/-- R6, R7, R186: each read at an operation address of a tally returns the value before it in the low byte, and then leaves it, raises it up
to 255, lowers it down to 0, or clears it; nothing else changes, the other tally included. While RST# is low it returns 0000h, and
changes no tally, by the model's reading (log 10). `readData` is the model's latch (log 9). -/
def Obligations.TallyReadsReturnAndOperate : Prop :=
  ∀ s : State,
    let posts := s.ex.posts.toNat
    let ready := s.ex.ready.toNat
    let after := fun (returned p r : Nat) => Host.Outcome.next (φ := Fault) (ρ := Refusal)
      { s with
        bus := { s.bus with readData := BitVec.ofNat 16 returned }
        ex := { s.ex with posts := BitVec.ofNat 8 p, ready := BitVec.ofNat 8 r } }
    (s.bus.held = false →
      exec (.peek .posts) s = after posts posts ready ∧ exec (.peek .ready) s = after ready posts ready ∧
      exec (.add .posts) s = after posts (min 255 (posts + 1)) ready ∧ exec (.add .ready) s = after ready posts (min 255 (ready + 1)) ∧
      exec (.take .posts) s = after posts (posts - 1) ready ∧ exec (.take .ready) s = after ready posts (ready - 1) ∧
      exec (.clear .posts) s = after posts 0 ready ∧ exec (.clear .ready) s = after ready posts 0) ∧
    (s.bus.held = true → ∀ t : Tally, exec (.peek t) s = after 0 posts ready ∧ exec (.add t) s = after 0 posts ready ∧
      exec (.take t) s = after 0 posts ready ∧ exec (.clear t) s = after 0 posts ready)

/-! ### Host writes to exchange memory -/

/-- R2, R15, R186: a host write outside the kept cells stores the bytes of its enabled lanes and changes no other byte and nothing else; one
that addresses a byte of a kept cell is discarded: the first sets GUARD and records its even address, a later one while GUARD stands records
nothing. While RST# is low every write is discarded, and sets no GUARD. -/
def Obligations.HostWriteIsStoredOrGuarded : Prop :=
  (∀ (half : BitVec 15) (lanes : Lanes) (data : Half) (s : State), s.bus.held = false → s.mem.wf = true →
     (2 * half.toNat < 0x400 ∨ s.isKept ((2 * half.toNat - 0x400) / 512) = false) →
     ∃ m : Memory, exec (.hostMemoryWrite half lanes data) s = .next { s with mem := m } ∧
       ∀ a, m.read a =
         if a = 2 * half.toNat ∧ lanes.low = true then data.extractLsb' 0 8
         else if a = 2 * half.toNat + 1 ∧ lanes.high = true then data.extractLsb' 8 8
         else s.mem.read a) ∧
  (∀ (half : BitVec 15) (lanes : Lanes) (data : Half) (s : State) (n : CellNo), s.bus.held = false →
    (lanes.low = true ∨ lanes.high = true) →
    0x400 + 512 * n.val ≤ 2 * half.toNat → 2 * half.toNat ≤ 0x400 + 512 * n.val + 511 → s.isKept n.val = true →
    (s.ex.guard = false → exec (.hostMemoryWrite half lanes data) s = .next
      { s with ex := { s.ex with guard := true, guardAddr := BitVec.ofNat 16 (2 * half.toNat) } }) ∧
    (s.ex.guard = true → exec (.hostMemoryWrite half lanes data) s = .next s)) ∧
  ∀ (half : BitVec 15) (lanes : Lanes) (data : Half) (s : State), s.bus.held = true →
    exec (.hostMemoryWrite half lanes data) s = .next s

/-! ### Events and the sweep -/

/-- R183, R186: in HALTED none of the part's own events occurs, a sample period among them (that SC stands still then is R44's; that the
line samples are dropped is the model's reading, log 22). Of the commands that are what their rows say, a reset alone ends RUNNING, and a
write of 1 to RUN alone ends HALTED, with RST# high; so a part that is HALTED while RST# is low stays so. -/
def Obligations.HaltedPartTakesNoEvent : Prop :=
  (∀ (c : Instr) (s : State), partEvent c = true → s.clock.running = false → exec c s = .next s) ∧
  ∀ (s t : State) (c : Instr), c.wellFormed = true → exec c s = .next t →
    (s.clock.running = true → t.clock.running = false → (∃ ram, c = .powerOnReset ram) ∨
      ∃ lanes data, (c = .softReset lanes data ∨ c = .run lanes data ∨ c = .guardClear lanes data) ∧
        lanes.low = true ∧ data.getLsbD 1 = true) ∧
    (s.clock.running = false → t.clock.running = true → s.bus.held = false ∧
      ∃ lanes data, (c = .softReset lanes data ∨ c = .run lanes data ∨ c = .guardClear lanes data) ∧
        lanes.low = true ∧ data.getLsbD 0 = true) ∧
    ((s.bus.held = true → s.clock.running = false) → t.bus.held = true → t.clock.running = false)

/-- R8, R11, R12: with POSTS at 0 an expiry spends itself and nothing more. A sweep with no event between its takes that finds posting
stamps on kept cells alone is idle: it takes nothing and ends with CLEAR on POSTS, whatever POSTS held, and touches no channel, ring, grant
or verdict; no port, tone or identity either but by the sample periods that pass in it (log 5). A first clash sets the cell's clash flag and
gives a STAMP_CLASH mark with FFh, the cell number, SC, and the stamp found. When every such cell has clashed before, the sweep changes
nothing else at all. -/
def Obligations.IdleSweepClearsPosts : Prop :=
  (∀ (work : List (List (Four Sample))) (between : List (CellNo × PartEvent)) (s : State), s.canTake .sweep = true → s.ex.posts = 0 →
     exec (.sweep work between) s = .next (s.undue .sweep)) ∧
  ∀ (work : List (List (Four Sample))) (s : State), s.canTake .sweep = true → s.ex.posts ≠ 0 → s.mem.wf = true →
    tableRising s.ex.keeping = true →
    ((∀ n : CellNo, isPosting (s.stamp n) = true → s.isKept n.val = true) →
      ∃ t, exec (.sweep work []) s = .next t ∧ t.ex.posts = 0 ∧ t.chan = s.chan ∧ t.cap = s.cap ∧ t.ring = s.ring ∧ t.arb = s.arb ∧
        t.verdict = s.verdict ∧ t.bus = s.bus ∧ t.pending = s.pending ∧ t.due = s.due.without .sweep ∧
        (work = [] → t.port = s.port ∧ t.ident = s.ident ∧ t.tone = s.tone ∧
          t.clock = { s.clock with work := [] })) ∧
    (∀ (n : CellNo) (k : Kept), isPosting (s.stamp n) = true → s.keptAt n.val = some k → k.clash = false →
      (∀ m : CellNo, m ≠ n → isPosting (s.stamp m) = false) →
      let u := ({ s with
        due := s.due.without .sweep
        clock := { s.clock with work := work } }).sweepWork
      let t := (u.setKept n { role := k.role, clash := true }).giveMark
        { kind := .stampClash, line := 0xFF, detail16 := BitVec.ofNat 16 n.val, time := u.clock.sc,
          detail32 := BitVec.ofNat 32 (s.stamp n).toNat }
      exec (.sweep work []) s = .next
        { t with ex := { t.ex with posts := 0 }, clock := { t.clock with work := [] } }) ∧
    ((∀ n : CellNo, isPosting (s.stamp n) = true → ∃ k, s.keptAt n.val = some k ∧ k.clash = true) →
      exec (.sweep work []) s = .next
        { s with
          due := s.due.without .sweep
          ex := { s.ex with posts := 0 }
          clock := { s.clock with work := [] } })

/-- R8, R9, R10, R13, R17: a sweep that finds one request is the take of that cell and its dispatch, and nothing more. A take, after the
sample periods that pass before it (log 5), writes 21h into the stamp, keeps the cell with its clash flag clear and does TAKE on POSTS; a
11h cell then goes to the dispatch of a parcel, in the role of its channel's, a 12h cell to that of a sheet, and a 13h cell to the spare
stock. With fewer than 32 spare cells a GRANTED cell is kept as the newest spare; with 32 it comes back as RETURNED, with READY raised and
the stock as it was. Of two requests the lower cell's is taken and dispatched first, and the other is examined in the state that leaves. Any
sweep examines the stamps in ascending order, each after the events that fall before it, which are the events of their own commands, and in
the state that the steps before left; one that took no cell ends with CLEAR on POSTS. -/
def Obligations.SweepTakesThePostedCell : Prop :=
  (∀ (s : State) (n : CellNo) (work : List (List (Four Sample))), s.canTake .sweep = true → s.ex.posts ≠ 0 → s.mem.wf = true →
     isPosting (s.stamp n) = true → s.isKept n.val = false → (∀ m : CellNo, m ≠ n → isPosting (s.stamp m) = false) →
     let t := ({ s with
       due := s.due.without .sweep
       clock := { s.clock with work := work } }).takeCell n (s.stamp n)
     exec (.sweep work []) s = .next { t with clock := { t.clock with work := [] } }) ∧
  (∀ (s : State) (n : CellNo),
    let u := s.sweepWork
    let taken := fun (role : Role) => { u with
      mem := u.mem.write n.val 0x21
      ex := { u.ex with
        posts := if u.ex.posts = 0 then 0 else u.ex.posts - 1
        keeping := tablePut u.ex.keeping n.val { role := role, clash := false } } }
    (∃ role, s.takeCell n 0x11 = (taken role).dispatchParcel n ∧
      ∀ ch : LineNo, (s.cellByte n 0).toNat = ch.val → role = .parcel ch 0) ∧
    s.takeCell n 0x12 = (taken .sheet).runSheet n ∧
    s.takeCell n 0x13 = (taken .spare).joinSpare n) ∧
  (∀ (s : State) (n : CellNo), s.canTake .sweep = true → s.ex.posts ≠ 0 → s.mem.wf = true → tableRising s.ex.keeping = true →
     s.stamp n = 0x13 → s.isKept n.val = false → (∀ m : CellNo, m ≠ n → isPosting (s.stamp m) = false) →
     (s.ex.spare.length < 32 → exec (.sweep [] []) s = .next
       { s with
         due := s.due.without .sweep
         clock := { s.clock with work := [] }
         mem := s.mem.write n.val 0x21
         ex := { s.ex with
           posts := s.ex.posts - 1
           keeping := tablePut s.ex.keeping n.val { role := .spare, clash := false }
           spare := s.ex.spare ++ [n] } }) ∧
     (32 ≤ s.ex.spare.length → exec (.sweep [] []) s = .next
       { s with
         due := s.due.without .sweep
         clock := { s.clock with work := [] }
         mem := s.mem.write n.val 0x33
         ex := { s.ex with posts := s.ex.posts - 1, ready := if s.ex.ready = 255 then 255 else s.ex.ready + 1 } })) ∧
  (∀ (s : State) (a b : CellNo) (work : List (List (Four Sample))), s.canTake .sweep = true → s.ex.posts ≠ 0 → s.mem.wf = true →
     a < b → isPosting (s.stamp a) = true → s.isKept a.val = false → (∀ m : CellNo, m ≠ a → m ≠ b → isPosting (s.stamp m) = false) →
     let t := ({ s with
       due := s.due.without .sweep
       clock := { s.clock with work := work } }).takeCell a (s.stamp a)
     isPosting (t.stamp b) = true → t.isKept b.val = false →
     let v := t.takeCell b (t.stamp b)
     exec (.sweep work []) s = .next { v with clock := { v.clock with work := [] } }) ∧
  (∀ (s : State) (work : List (List (Four Sample))) (between : List (CellNo × PartEvent)), s.canTake .sweep = true → s.ex.posts ≠ 0 →
    let step := fun (acc : State × Bool) (n : CellNo) =>
      let u := (between.filter fun e => e.1 == n).foldl (fun v e => v.partEvent e.2) acc.1
      if isPosting (u.stamp n) = true then
        if u.isKept n.val = true then ((u.keptAt n.val).elim u (fun k => u.clash n k (u.stamp n)), acc.2)
        else (u.takeCell n (u.stamp n), true)
      else (u, acc.2)
    let r := (List.finRange 126).foldl step ({ s with due := s.due.without .sweep, clock := { s.clock with work := work } }, false)
    exec (.sweep work between) s = .next
      { r.1 with
        ex := if r.2 = true then r.1.ex else { r.1.ex with posts := 0 }
        clock := { r.1.clock with work := [] } }) ∧
  ∀ (s : State) (p : LineNo) (cause : TriggerCause) (hook trip : Bool),
    exec (.frameBoundary p) s = .next (s.partEvent (.frameBoundary p)) ∧ exec (.farFrame p) s = .next (s.partEvent (.farFrame p)) ∧
    exec (.captureEvent p) s = .next (s.partEvent (.captureEvent p)) ∧ exec (.lineVerdict p) s = .next (s.partEvent (.lineVerdict p)) ∧
    exec (.toneTrigger p cause) s = .next (s.partEvent (.toneTrigger p cause)) ∧
    exec (.lineScan p hook trip) s = .next (s.partEvent (.lineScan p hook trip)) ∧
    exec (.portTimerExpiry p) s = .next (s.partEvent (.portTimer p)) ∧ exec (.cadenceTick p) s = .next (s.partEvent (.cadenceTick p)) ∧
    exec (.ringDriveToggle p) s = .next (s.partEvent (.ringDrive p)) ∧ exec .markWriterBoundary s = .next (s.partEvent .markWriter)

/-- R4, R8, R9, R12, R46: whatever falls between its takes, when a sweep is over a posting stamp, 11h, 12h or 13h, stands on kept cells
alone: every request has been taken. A sweep that begins with SC at a multiple of 8 ends with SC at most 7 above it. -/
def Obligations.SweepLeavesNoRequestBehind : Prop :=
  (∀ b : Byte, isPosting b = true ↔ b = 0x11 ∨ b = 0x12 ∨ b = 0x13) ∧
  ∀ (work : List (List (Four Sample))) (between : List (CellNo × PartEvent)) (s : State), s.canTake .sweep = true → s.ex.posts ≠ 0 →
    s.mem.wf = true → tableRising s.ex.keeping = true →
    ∃ t, exec (.sweep work between) s = .next t ∧ (∀ n : CellNo, isPosting (t.stamp n) = true → t.isKept n.val = true) ∧
      (s.clock.sc.toNat % 8 = 0 → (t.clock.sc - s.clock.sc).toNat ≤ 7)

/-- R29, R10: the five tests of a parcel header in their order, each with its reason; a refused parcel's reason goes into header byte 16 and
its cell back as REFUSED, with no channel changed; a valid one goes to its channel, with SC at the take as its arrival time. The fields of a
header stand where R188 puts them, multi-byte ones low byte first (R187); a lag is read only below the redundant count, and 5. R28: primary
block k has index k and timestamp TS + 80·k, redundant block j index P + j and TS − 80·lag j; a payload holds 6 blocks of 80 bytes, or 3 of
160 in LIN16, from offset 32. -/
def Obligations.ParcelValidationOrder : Prop :=
  (∀ (s : State) (n : CellNo),
    let h := s.parcelHeader n
    (3 < h.channel → s.dispatchParcel n = s.refuseCell n 0x01) ∧
    ∀ ch : LineNo, h.channel = ch.val →
      ((s.chan.get ch).state = .closed → s.dispatchParcel n = s.refuseCell n 0x02) ∧
      ((s.chan.get ch).state ≠ .closed → h.coding = none → s.dispatchParcel n = s.refuseCell n 0x03) ∧
      ∀ coding : Coding, (s.chan.get ch).state ≠ .closed → h.coding = some coding →
        (h.primary = 0 ∨ coding.capacity < h.primary + h.redundant → s.dispatchParcel n = s.refuseCell n 0x04) ∧
        (h.primary ≠ 0 → h.primary + h.redundant ≤ coding.capacity →
          ((∃ l ∈ h.lags, l = 0 ∨ 15 < l) → s.dispatchParcel n = s.refuseCell n 0x05) ∧
          ((∀ l ∈ h.lags, l ≠ 0 ∧ l ≤ 15) → s.dispatchParcel n = s.arrive ch n coding h))) ∧
  (∀ (s : State) (n : CellNo) (reason : Byte), s.mem.wf = true → tableRising s.ex.keeping = true →
    let t := s.refuseCell n reason
    t.chan = s.chan ∧ t.cellByte n 16 = reason ∧ t.stamp n = 0x3F ∧ t.isKept n.val = false ∧
    t.ex.ready = (if s.ex.ready = 255 then 255 else s.ex.ready + 1) ∧
    ∀ a, a ≠ n.val → a ≠ cellAddr n 16 → t.byteAt a = s.byteAt a) ∧
  (∀ (s : State) (ch : LineNo) (n : CellNo) (coding : Coding) (h : ParcelHeader),
    ((s.arrive ch n coding h).chan.get ch).prevTransit = some (s.clock.sc - h.ts)) ∧
  (∀ (s : State) (n : CellNo),
    let byte := s.cellByte n
    let h := s.parcelHeader n
    (∀ off, byte off = s.byteAt (0x400 + 512 * n.val + off) ∧ s.cellHalf n off = byte (off + 1) ++ byte off ∧
      s.cellWord n off = byte (off + 3) ++ byte (off + 2) ++ byte (off + 1) ++ byte off) ∧
    h.channel = (byte 0).toNat ∧ h.spurt = (byte 2).getLsbD 0 ∧ h.primary = (byte 3).toNat ∧
    h.ts = byte 7 ++ byte 6 ++ byte 5 ++ byte 4 ∧ h.redundant = (byte 10).toNat ∧ h.lags.length = min h.redundant 5 ∧
    (∀ j, j < min h.redundant 5 → h.lags[j]? = some (byte (11 + j)).toNat) ∧
    ∀ coding : Coding, h.coding = some coding ↔ byte 1 = match coding with
      | .mu => 0x01
      | .a => 0x02
      | .lin16 => 0x03) ∧
  (∀ h : ParcelHeader, h.blocks.length = h.primary + h.redundant ∧
    (∀ k, k < h.primary → h.blocks[k]? = some { index := k, origin := .primary, ts := h.ts + BitVec.ofNat 32 (80 * k) }) ∧
    ∀ j lag, j < h.redundant → h.lags[j]? = some lag → h.blocks[h.primary + j]? = some
      { index := h.primary + j, origin := .redundant, ts := h.ts - BitVec.ofNat 32 (80 * lag) }) ∧
  Coding.mu.capacity = 6 ∧ Coding.a.capacity = 6 ∧ Coding.lin16.capacity = 3 ∧
  ∀ i, blockOffset .mu i = 32 + 80 * i ∧ blockOffset .a i = 32 + 80 * i ∧ blockOffset .lin16 i = 32 + 160 * i

/-- R10, R172, R173, R174, R189: a sheet of no entries or more than 16 is refused with BAD_SHEET; any other runs its entries in ascending
order, each from the state the one before left, after the sample periods that pass before it (the model's choice, log 5), each with its
answer in its own answer byte, and goes back as ANSWERED. The order code of an entry selects its order, with the target and the fields of
the entry; a target above 3 is BAD_TARGET, but for SET_RESERVE, which has none, and a code that is no order is UNKNOWN; neither changes
anything. Each answer has the code of R189. -/
def Obligations.SheetsRunTheirOrders : Prop :=
  (∀ (s : State) (n : CellNo),
     let count := (s.cellByte n 0).toNat
     (count = 0 ∨ 16 < count → s.runSheet n = s.refuseCell n 0x08) ∧
     (1 ≤ count → count ≤ 16 → s.runSheet n =
       ((List.range count).foldl (fun u k =>
         let r := u.sweepWork.runOrder n count k
         r.1.putCell n (32 + 16 * k + 15) [r.2.code]) s).handOver n 0x34)) ∧
  (Answer.done.code = 0x01 ∧ Answer.adjusted.code = 0x02 ∧ Answer.started.code = 0x03 ∧ Answer.busy.code = 0x10 ∧
    Answer.badTarget.code = 0x11 ∧ Answer.badParam.code = 0x12 ∧ Answer.emptyCadence.code = 0x13 ∧ Answer.notOpen.code = 0x14 ∧
    Answer.alreadyOpen.code = 0x15 ∧ Answer.unknown.code = 0x1F) ∧
  ∀ (s : State) (n : CellNo) (count k : Nat),
    let byte := fun i => (s.cellByte n (32 + 16 * k + i)).toNat
    let half := fun i => (s.cellHalf n (32 + 16 * k + i)).toNat
    let code := byte 0
    let run := s.runOrder n count k
    (1 ≤ code → code ≤ 13 → 3 < byte 1 → run = (s, .badTarget)) ∧
    (code = 0 ∨ 14 < code → run = (s, .unknown)) ∧
    (code = 14 → run = s.orderSetReserve (byte 2)) ∧
    ∀ p : LineNo, byte 1 = p.val →
      (code = 1 → run = s.orderPortUp p) ∧
      (code = 2 → run = s.orderPortDown p) ∧
      (code = 3 → run = s.orderSetPolarity p (s.cellByte n (32 + 16 * k + 2))) ∧
      (code = 4 → run = s.orderSetHookTiming p (byte 2)
        { pulseMin := half 4, flashMin := half 6, hangupMin := half 8, digitGap := half 10 }) ∧
      (code = 5 → run = s.orderRing p n count (byte 2) (byte 3) (byte 4) (half 6)) ∧
      (code = 6 → run = s.orderRingStop p) ∧
      (code = 7 → run = s.orderTone p (byte 2) (if byte 3 % 2 = 1 then some (byte 4) else none)) ∧
      (code = 8 → run = s.orderToneStop p) ∧
      (code = 9 → run = s.orderChannelOpen p n count (half 2)) ∧
      (code = 10 → run = s.orderChannelClose p) ∧
      (code = 11 → run = s.orderChannelSteady p (if byte 2 % 2 = 1 then some (byte 3) else none)) ∧
      (code = 12 → run = s.orderChannelSpeech p) ∧
      (code = 13 → run = s.orderSnapshot p n count (half 4) (byte 2 % 2 == 1))

/-! ### Timing arithmetic and arrival -/

/-- R49: the rounded distance by its remainder, its place on the grid, its range, and the raw distances that give each class. -/
def Obligations.RoundingMovesToTheGrid : Prop :=
  ∀ t cursor : Word,
    let d := (t - cursor).toInt
    let r := d % 80
    let d' := roundedDistance (rawDistance t cursor)
    (r = 0 → d' = d) ∧ (1 ≤ r → r ≤ 40 → d' = d - r) ∧ (41 ≤ r → d' = d + 80 - r) ∧
    80 ∣ d' ∧ d - 40 ≤ d' ∧ d' ≤ d + 39 ∧ -2147483680 ≤ d' ∧ d' ≤ 2147483680 ∧
    (d ≤ -40 → d' ≤ -80 ∧ classOf d' = .late) ∧
    (-39 ≤ d → d ≤ 40 → d' = 0 ∧ classOf d' = .placeable) ∧
    (∀ slot : Int, 1 ≤ slot → slot ≤ 31 → 80 * slot - 39 ≤ d → d ≤ 80 * slot + 40 → d' = 80 * slot ∧ classOf d' = .placeable) ∧
    (2521 ≤ d → 2560 ≤ d' ∧ classOf d' = .early)

/-- R52, R53, R55, R56: the step of a jitter update, the figure it leaves, and that the figure stays within 0..64,000, holds there under
the largest steps, and without deviation falls into 1..7 and stays; it is 0 at open and at reset and kept at close. The target is base_frames
plus the least whole number not below 3·J16 / 1280, brought into min_frames..max_frames; the steady frames follow it by the margin, or by an
explicit count brought into target..30. -/
def Obligations.JitterAndTargetFollowTheirFormulas : Prop :=
  ((∀ t tPrev : Word, jitterStep t tPrev = min (t - tPrev).toInt.natAbs 4000 ∧ -2147483648 ≤ (t - tPrev).toInt ∧
     (t - tPrev).toInt ≤ 2147483647) ∧
   (∀ (c : Channel) (t tPrev : Word), (c.jitterUpdate t tPrev).j16 = c.j16 + jitterStep t tPrev - (c.j16 + 8) / 16) ∧
   (∀ x y : Nat, x ≤ y → x - (x + 8) / 16 ≤ y - (y + 8) / 16) ∧
   (∀ j a : Nat, j ≤ 64000 → a ≤ 4000 → jitterNext j a ≤ 64000) ∧ jitterNext 64000 4000 = 64000 ∧
   (∀ j : Nat, 8 ≤ j → jitterNext j 0 + 1 ≤ j) ∧ (∀ j : Nat, j ≤ 7 → jitterNext j 0 = j) ∧
   (∀ j : Nat, 0 < j → ∃ k, ∀ m, k ≤ m → 1 ≤ Nat.repeat (fun x => jitterNext x 0) m j ∧ Nat.repeat (fun x => jitterNext x 0) m j ≤ 7) ∧
   (∀ p : OpenParams, (Channel.opened p).j16 = 0) ∧ Channel.reset.j16 = 0 ∧
   ∀ (s : State) (ch : LineNo), ((s.closeChannel ch).chan.get ch).j16 = (s.chan.get ch).j16) ∧
  (∀ (p : OpenParams) (j16 : Nat), p.minFrames ≤ p.maxFrames → ∃ q, 3 * j16 ≤ 1280 * q ∧ 1280 * q < 3 * j16 + 1280 ∧
    targetOf p j16 = max p.minFrames (min p.maxFrames (p.baseFrames + q))) ∧
  (∀ target margin : Nat, steadyFramesOf target margin none = (min 30 (target + margin), false)) ∧
  ∀ target margin v : Nat, target ≤ 30 →
    (v < target → steadyFramesOf target margin (some v) = (target, true)) ∧
    (target ≤ v → v ≤ 30 → steadyFramesOf target margin (some v) = (v, false)) ∧
    (30 < v → steadyFramesOf target margin (some v) = (30, true))

/-- R37: the late and early runs after each of the four trial outcomes, that an anchoring or re-anchoring parcel clears both, that a run
reaching 3 makes the parcel a resync parcel of its cause, and that the resync returns both runs to 0. -/
def Obligations.RunsFollowTheTrialClassification : Prop :=
  (∀ (c : Channel) (h : ParcelHeader), h.primary ≠ 0 →
    (c.state = .waiting → c.alignment h = (.anchoring, { c with lateRun := 0, earlyRun := 0 })) ∧
    (c.state = .gap → c.mode = .speech → h.spurt = true → c.alignment h = (.reanchoring, { c with lateRun := 0, earlyRun := 0 })) ∧
    (c.state ≠ .waiting → ¬ (c.state = .gap ∧ c.mode = .speech ∧ h.spurt = true) →
      ((∀ b ∈ h.blocks, c.classify b = .late) → c.alignment h =
        (if 3 ≤ c.lateRun + 1 then .resync false else .ordinary, { c with lateRun := c.lateRun + 1, earlyRun := 0 })) ∧
      ((∀ b ∈ h.blocks, c.classify b = .early) → c.alignment h =
        (if 3 ≤ c.earlyRun + 1 then .resync true else .ordinary, { c with lateRun := 0, earlyRun := c.earlyRun + 1 })) ∧
      ((∃ b ∈ h.blocks, c.classify b = .placeable) → c.alignment h = (.ordinary, { c with lateRun := 0, earlyRun := 0 })) ∧
      ((∃ b ∈ h.blocks, c.classify b = .late) → (∃ b ∈ h.blocks, c.classify b = .early) →
        (∀ b ∈ h.blocks, c.classify b ≠ .placeable) → c.lateRun < 3 → c.earlyRun < 3 → c.alignment h = (.ordinary, c)))) ∧
  ∀ (s : State) (ch : LineNo) (early : Bool) (ts : Word),
    ((s.resync ch early ts).chan.get ch).lateRun = 0 ∧ ((s.resync ch early ts).chan.get ch).earlyRun = 0

/-- R35, R36, R40, R42: a block is counted by its class, and as realigned when rounding moved it; a placeable block whose rounded timestamp
no entry has makes one entry, in its place of an ascending list, and counts as recovered when it is redundant. A counter that gains 1 at
65535 goes to 0 and sets its own flag of the rollover mask; the other counters and flags stay, and the counters stand in the order of the
manual's table. -/
def Obligations.BlockPlacementMakesAndCounts : Prop :=
  ([Counter.played, .concealed, .filled, .lateBlocks, .earlyBlocks, .duplicateBlocks, .recoveredBlocks, .realignedBlocks, .trimmedFrames,
    .resyncs, .parcelsSent, .starvedPeriods].map Counter.index = List.range 12) ∧
  (∀ (c : Channel) (k : Counter), c.counters.length = 12 →
    let d := c.bump k
    d = { c with counters := d.counters, rollover := d.rollover } ∧ d.counters.length = 12 ∧
    (d.counter k).toNat = ((c.counter k).toNat + 1) % 65536 ∧ (∀ m, m ≠ k → d.counter m = c.counter m) ∧
    d.rollover.getLsbD k.index = (c.rollover.getLsbD k.index || c.counter k == 0xFFFF) ∧
    ∀ i, i ≠ k.index → d.rollover.getLsbD i = c.rollover.getLsbD i) ∧
  ∀ (n : CellNo) (coding : Coding) (c : Channel) (made : Nat) (b : Block),
    let d := (b.ts - c.cursor).toInt
    let d' := roundedDistance d
    let base := if d % 80 = 0 then c else c.bump .realignedBlocks
    let r := Channel.placeBlock n coding (c, made) b
    (d' < 0 → r = (base.bump .lateBlocks, made)) ∧
    (2560 ≤ d' → r = (base.bump .earlyBlocks, made)) ∧
    (0 ≤ d' → d' < 2560 →
      let t := c.cursor + BitVec.ofInt 32 d'
      ((∃ e ∈ c.list, e.ts = t) → r = (base.bump .duplicateBlocks, made)) ∧
      ((∀ e ∈ c.list, e.ts ≠ t) →
        r.2 = made + 1 ∧
        r.1 = { (if b.origin = .redundant then base.bump .recoveredBlocks else base) with list := r.1.list } ∧
        r.1.list.Perm ({ ts := t, cell := n, block := b.index, coding := coding, origin := b.origin } :: c.list) ∧
        (c.list.Pairwise (fun x y => rawDistance x.ts c.cursor < rawDistance y.ts c.cursor) →
          r.1.list.Pairwise (fun x y => rawDistance x.ts c.cursor < rawDistance y.ts c.cursor))))

/-- R30, R31, R32, R33, R35, R39, R50: the arrival of a parcel by its kind. One that meets a WAITING channel anchors it: C = TS − 80·F, the
channel FLOWING, J16 and the target left, and its first primary block on the list with the parcel's own timestamp, F frames ahead. A
re-anchoring one makes its jitter update first and sets C from the target it leaves; an ordinary one makes its update and leaves C; a resync
one makes none and realigns. Each stores its transit and then places its blocks: the cell's reference count is the entries made, a cell with
none goes back as RETURNED, and a GAP channel that gains an entry is FLOWING. -/
def Obligations.ArrivalFollowsItsKind : Prop :=
  (∀ (s : State) (ch : LineNo) (n : CellNo) (coding : Coding) (h : ParcelHeader),
    let c := s.chan.get ch
    let f := match c.mode with
      | .speech => c.target
      | .steady => c.steady.getD c.target
    c.state = .waiting → c.list = [] → f ≤ 30 → 1 ≤ h.primary →
      let d := (s.arrive ch n coding h).chan.get ch
      d.state = .flowing ∧ d.cursor = h.ts - BitVec.ofNat 32 (80 * f) ∧ d.hold = 0 ∧ d.excess = 0 ∧ d.trim = false ∧
      d.j16 = c.j16 ∧ d.target = c.target ∧ d.prevTransit = some (s.now - h.ts) ∧
      { ts := h.ts, cell := n, block := 0, coding := coding, origin := .primary : Entry } ∈ d.list ∧
      (h.ts - d.cursor).toInt = 80 * f) ∧
  (∀ (s : State) (ch : LineNo) (n : CellNo) (coding : Coding) (h : ParcelHeader),
    let c := s.chan.get ch
    let a := c.alignment h
    let t := s.now - h.ts
    let place := fun (u : State) (k : Channel) =>
      let r := k.placeBlocks n coding h.blocks
      let v := (u.setChan ch r.1).setRole n (.parcel ch r.2)
      if r.2 = 0 then v.handOver n 0x33 else v
    (c.state = .waiting →
      let f := match c.mode with
        | .speech => c.target
        | .steady => c.steady.getD c.target
      s.arrive ch n coding h = place s { c with
        lateRun := 0, earlyRun := 0, prevTransit := some t, cursor := h.ts - BitVec.ofNat 32 (80 * f), state := .flowing,
        hold := 0, excess := 0, trim := false }) ∧
    (∀ tp, c.prevTransit = some tp →
      let j16 := c.j16 + min (t - tp).toInt.natAbs 4000 - (c.j16 + 8) / 16
      let target := targetOf c.params j16
      (c.state = .gap → c.mode = .speech → h.spurt = true → s.arrive ch n coding h = place s { c with
        lateRun := 0, earlyRun := 0, j16 := j16, target := target, prevTransit := some t,
        cursor := h.ts - BitVec.ofNat 32 (80 * target), hold := 0, excess := 0, trim := false }) ∧
      (a.1 = .ordinary → s.arrive ch n coding h = place s { a.2 with j16 := j16, target := target, prevTransit := some t })) ∧
    ∀ early, a.1 = .resync early → s.arrive ch n coding h =
      let u := (s.setChan ch { a.2 with prevTransit := some t }).resync ch early h.ts
      place u (u.chan.get ch)) ∧
  ∀ (c : Channel) (n : CellNo) (coding : Coding) (bs : List Block),
    let r := c.placeBlocks n coding bs
    let placed := bs.foldl (Channel.placeBlock n coding) (c, 0)
    r.2 = placed.2 ∧ r.1.list.length = c.list.length + r.2 ∧
    r.1 = (if 0 < r.2 ∧ c.state = .gap then { placed.1 with state := .flowing } else placed.1)

/-- R38, R39, R14: a resync flushes the list, sets C = TS − 80·F and FLOWING, clears both runs, the hold, the excess run and the pending
trim, counts one resync, and gives a RESYNC mark with its cause and the new cursor. When an entry that names a kept parcel cell leaves a
list, the cell's reference count falls by 1, and at 0 the cell goes back as RETURNED: its stamp is 33h, it is kept no more, and READY is
raised. -/
def Obligations.ResyncReturnsItsCells : Prop :=
  (∀ (s : State) (ch : LineNo) (early : Bool) (ts : Word),
     let c := s.chan.get ch
     let f := match c.mode with
       | .speech => c.target
       | .steady => c.steady.getD c.target
     let moved := { c with
       list := [], cursor := ts - BitVec.ofNat 32 (80 * f), state := .flowing, lateRun := 0, earlyRun := 0, hold := 0, excess := 0,
       trim := false }
     s.resync ch early ts = ((c.list.foldl (fun u e => u.dropRef e.cell) s).setChan ch (moved.bump .resyncs)).giveMark
       { kind := .resync, line := BitVec.ofNat 8 ch.val, detail16 := if early then 1 else 0, time := s.now, detail32 := moved.cursor }) ∧
  ∀ (s : State) (n : CellNo) (ch : LineNo) (refs : Nat) (clash : Bool),
    s.keptAt n.val = some { role := .parcel ch refs, clash := clash } →
    (2 ≤ refs → s.dropRef n =
      { s with ex := { s.ex with keeping := tablePut s.ex.keeping n.val { role := .parcel ch (refs - 1), clash := clash } } }) ∧
    (refs ≤ 1 → s.dropRef n =
      { s with
        mem := s.mem.write n.val 0x33
        ex := { s.ex with
          keeping := tableDrop s.ex.keeping n.val
          ready := if s.ex.ready = 255 then 255 else s.ex.ready + 1 } })

/-! ### Frame boundaries and modes -/

/-- R59, R60, R61, R63, R66, R68, R69, R104: a CLOSED channel does nothing at its frame boundary; a WAITING one hands silence to its port
and no far frame; one with a hold hands silence to both sides and only lowers the hold. An ordinary frame boundary with an entry at C plays
it: the entry leaves the list, the decoded block becomes the last played frame and, before gain, the far frame, the gained block goes to the
port, the conceal count is 0, the played counter gains 1, C advances, the state settles, and the cell loses one reference. The first far
frame since the channel was opened says so (the model's reading of R165, log 26). -/
def Obligations.FrameBoundaryHandsOnItsFrames : Prop :=
  ∀ (ch : LineNo) (s : State), s.canTake (.frame ch) = true →
    let c := s.chan.get ch
    let v := s.verdict.get ch
    let u := s.undue (.frame ch)
    let silent : Frame := List.replicate 80 0
    let port := fun (w : State) (out : Frame) => w.setPort ch { s.port.get ch with played := out }
    let far := fun (w : State) (f : Frame) => w.setVerdict ch { v with reopened := false, farFrames := v.farFrames ++
      [{ boundary := s.clock.boundaries, sc := s.clock.boundarySc, afresh := v.reopened, samples := f }] }
    (c.state = .closed → exec (.frameBoundary ch) s = .next u) ∧
    (c.state = .waiting → exec (.frameBoundary ch) s = .next (port u silent)) ∧
    ((c.state = .flowing ∨ c.state = .gap) → 0 < c.hold → exec (.frameBoundary ch) s = .next
      (far ((port u silent).setChan ch { c with hold := c.hold - 1 }) silent)) ∧
    ∀ e : Entry, (c.state = .flowing ∨ c.state = .gap) → c.hold = 0 → c.trim = false →
      c.list.find? (fun x => x.ts == c.cursor) = some e →
      let f := s.decodeBlock e.cell e.coding e.block
      let played := ({ c with list := c.list.eraseP (fun x => x.ts == c.cursor), last := f, conceal := 0 }).bump .played
      exec (.frameBoundary ch) s = .next
        (far (port ((u.dropRef e.cell).setChan ch played.settle) (f.map (gainSample c.params.playoutGain))) f)

/-- R64, R65, R66, R105: an ordinary frame boundary with no entry at C: in SPEECH the last played frame, scaled by 3, 2, 1 or 0 quarters as
the conceal count grows, goes to the port and the concealed counter gains 1; in STEADY silence goes and the filled counter gains 1. The far
frame is silence in both, the list and the last played frame stay, and C advances. The first far frame since the channel was opened says so
(the model's reading of R165, log 26). -/
def Obligations.FrameBoundaryConcealsOrFills : Prop :=
  ∀ (ch : LineNo) (s : State), s.canTake (.frame ch) = true →
    let c := s.chan.get ch
    let v := s.verdict.get ch
    let count := min 255 (c.conceal + 1)
    let quarters := if count = 1 then 3 else if count = 2 then 2 else if count = 3 then 1 else 0
    let hand := fun (k : Channel) (out : Frame) =>
      (((s.undue (.frame ch)).setChan ch k).setPort ch { s.port.get ch with played := out }).setVerdict ch { v with
        reopened := false
        farFrames := v.farFrames ++
          [{ boundary := s.clock.boundaries, sc := s.clock.boundarySc, afresh := v.reopened, samples := List.replicate 80 0 }] }
    (c.state = .flowing ∨ c.state = .gap) → c.hold = 0 → c.trim = false → (∀ e ∈ c.list, e.ts ≠ c.cursor) →
      (c.mode = .speech → exec (.frameBoundary ch) s = .next
        (hand (({ c with conceal := count }).bump .concealed).settle
          (c.last.map fun x => gainSample c.params.playoutGain (sat ((x.toInt * (quarters : Int)).tdiv 4))))) ∧
      (c.mode = .steady → exec (.frameBoundary ch) s = .next (hand (c.bump .filled).settle (List.replicate 80 0)))

/-- R62, R66, R67: settling advances C by 80, makes a channel with no entry left GAP, and in SPEECH counts the boundaries that leave a
FLOWING channel target + 3 entries or more: the twentieth in a row sets trim pending. With a trim pending and no hold, a frame boundary is
the trim step, which drops the entry at C without playing it, if there is one, and moves C by 80, and then the ordinary frame boundary of
the state that leaves. -/
def Obligations.DepthControlAndTrimStep : Prop :=
  (∀ c : Channel,
     let moved := { c with cursor := c.cursor + 80, state := if c.list = [] then .gap else c.state }
     (c.mode = .steady → c.settle = moved) ∧
     (c.mode = .speech → moved.state = .flowing → c.target + 3 ≤ c.list.length → c.excess < 19 →
       c.settle = { moved with excess := c.excess + 1 }) ∧
     (c.mode = .speech → moved.state = .flowing → c.target + 3 ≤ c.list.length → 19 ≤ c.excess →
       c.settle = { moved with excess := 0, trim := true }) ∧
     (c.mode = .speech → moved.state ≠ .flowing ∨ c.list.length < c.target + 3 → c.settle = { moved with excess := 0 })) ∧
  ∀ (ch : LineNo) (s : State), s.canTake (.frame ch) = true →
    let c := s.chan.get ch
    let moved := { c with cursor := c.cursor + 80, trim := false }
    (c.state = .flowing ∨ c.state = .gap) → c.hold = 0 → c.trim = true →
      ((∀ e ∈ c.list, e.ts ≠ c.cursor) → exec (.frameBoundary ch) s = exec (.frameBoundary ch) (s.setChan ch moved)) ∧
      ∀ e : Entry, c.list.find? (fun x => x.ts == c.cursor) = some e →
        exec (.frameBoundary ch) s = exec (.frameBoundary ch)
          ((s.dropRef e.cell).setChan ch (({ moved with list := c.list.eraseP (fun x => x.ts == c.cursor) }).bump .trimmedFrames))

/-- R8, R41, R58: the frame boundaries of two channels fall in either order with one result. -/
def Obligations.FrameBoundariesOfTwoChannelsCommute : Prop :=
  ∀ (a b : LineNo) (s t u : State), a ≠ b → s.mem.wf = true → s.keepingOk →
    exec (.frameBoundary a) s = .next t → exec (.frameBoundary b) s = .next u →
    exec (.frameBoundary b) t = exec (.frameBoundary a) u

/-- R75, R72, R77: a tone trigger takes an open SPEECH channel with auto_steady on into STEADY, with the hold that its delay needs and a
MODE_STEADY mark of the trigger's cause; any other channel ignores it. Either way the trigger is spent. -/
def Obligations.ToneTriggerEntersSteady : Prop :=
  ∀ (ch : LineNo) (cause : TriggerCause) (s : State), s.clock.running = true → cause ∈ (s.verdict.get ch).triggers →
    let c := s.chan.get ch
    let v := s.verdict.get ch
    let u := s.setVerdict ch { v with triggers := v.triggers.erase cause }
    let steady := min 30 (c.target + c.params.steadyMargin)
    let added := if c.state = .flowing ∨ c.state = .gap then steady - c.target else 0
    (c.state ≠ .closed → c.mode = .speech → c.params.autoSteady = true → exec (.toneTrigger ch cause) s = .next
      ((u.setChan ch { c with steady := some steady, hold := c.hold + added, mode := .steady, excess := 0, trim := false }).giveMark
        { kind := .modeSteady, line := BitVec.ofNat 8 ch.val, detail16 := if cause = .toneLine then 1 else 2, time := s.now,
          detail32 := BitVec.ofNat 32 (steady + 65536 * added) })) ∧
    (c.state = .closed ∨ c.mode = .steady ∨ c.params.autoSteady = false → exec (.toneTrigger ch cause) s = .next u)

/-! ### Capture -/

/-- R81 to R85: a CLOSED channel captures nothing; an open one takes the frame its port delivered, silent if the port is DOWN, gained or
muted, judges it, puts it at the head of a history of three, and moves its timestamp by 80. No other channel, no port, ring, tone or
verdict, no register and no clock changes, and of the channel's playout side only its counters. While SILENT, an inactive SPEECH frame does
no more than that. What each period step does to memory, the stock, the mark writer and the rest of the record the next two statements say. -/
def Obligations.CaptureKeepsHistoryAndTimestamp : Prop :=
  ∀ (ch : LineNo) (s : State), s.canTake (.capture ch) = true →
    let c := s.cap.get ch
    let p := (s.chan.get ch).params
    let u := s.undue (.capture ch)
    let mode := if c.state = .packing then c.periodMode else (s.chan.get ch).mode
    let muted := mode = .speech ∧ p.muteDigits = true ∧ (s.port.get ch).state = .offhook ∧
      (digitTest (analyse (s.port.get ch).lineFrame)).isSome = true
    let delivered := if (s.port.get ch).state = .down then List.replicate 80 0 else (s.port.get ch).lineFrame
    let f := if muted then List.replicate 80 0 else delivered.map (gainSample p.captureGain)
    let active := p.vadThreshold = 0 ∨ p.vadThreshold ≤ energy f
    let inactive := if mode = .steady ∨ active then 0 else min 255 (c.inactive + 1)
    ((s.chan.get ch).state = .closed → exec (.captureEvent ch) s = .next u) ∧
    ((s.chan.get ch).state ≠ .closed → ∃ t, exec (.captureEvent ch) s = .next t ∧
      (t.cap.get ch).history = (f :: c.history).take 3 ∧ (t.cap.get ch).tsCounter = c.tsCounter + 80 ∧
      (t.cap.get ch).inactive = inactive ∧ (∀ m, m ≠ ch → t.cap.get m = s.cap.get m ∧ t.chan.get m = s.chan.get m) ∧
      t.chan.get ch = { s.chan.get ch with counters := (t.chan.get ch).counters, rollover := (t.chan.get ch).rollover } ∧
      t.port = s.port ∧ t.ring = s.ring ∧ t.ident = s.ident ∧ t.arb = s.arb ∧ t.tone = s.tone ∧ t.verdict = s.verdict ∧
      t.bus = s.bus ∧ t.clock = s.clock ∧ t.due = u.due ∧ t.pending = s.pending) ∧
    ((s.chan.get ch).state ≠ .closed → c.state = .silent → mode = .speech → ¬ active → exec (.captureEvent ch) s = .next
      (u.setCap ch { c with inactive := inactive, history := (f :: c.history).take 3, tsCounter := c.tsCounter + 80 }))

/-- R85 to R91, R18: what a capture event does in each period step but the hand-over of a longer period (the statement below). A period that
starts while the stock holds more cells than the reserve claims the oldest, and codes its redundant blocks, none in SPEECH and the newest
min(R, h) frames of the history in STEADY, at block P and on, and its own frame at block 0. With no more cells than the reserve it is
starved: no cell, the starved-periods counter gains 1, and the first starved period gives a STARVED mark; the period Q stays as it was, by
the model's reading (log 23). A later frame is coded at its place if there is a cell. The last frame of a starved period hands over nothing;
a period of one frame starts and ends at one event. -/
def Obligations.CapturePeriodsClaimRunAndStarve : Prop :=
  ∀ (ch : LineNo) (s : State), s.canTake (.capture ch) = true → (s.chan.get ch).state ≠ .closed →
    let c := s.cap.get ch
    let p := (s.chan.get ch).params
    let u := s.undue (.capture ch)
    let mode := if c.state = .packing then c.periodMode else (s.chan.get ch).mode
    let f := s.captureFrame ch mode
    let active := p.vadThreshold = 0 ∨ p.vadThreshold ≤ energy f
    let inactive := if mode = .steady ∨ active then 0 else min 255 (c.inactive + 1)
    let ended := if mode = .steady ∨ inactive < max 1 p.hangover then CapState.sending else .silent
    let kept := { c with inactive := inactive, history := (f :: c.history).take 3, tsCounter := c.tsCounter + 80 }
    let started := { kept with
      periodMode := mode, periodTs := c.tsCounter, frames := 1, spurt := c.spurt || c.state == .silent, state := .packing }
    let starved := fun (k : Capture) =>
      let t := (u.setCap ch { k with assembly := none, starving := true }).bump ch .starvedPeriods
      if c.starving then t else t.giveMark
        { kind := .starved, line := BitVec.ofNat 8 ch.val, detail16 := c.nextSeq, time := s.now, detail32 := c.tsCounter }
    (c.state = .sending ∨ c.state = .silent ∧ (mode = .steady ∨ active) →
      (s.ex.spare.length ≤ s.ex.reserve →
        (2 ≤ p.packing → exec (.captureEvent ch) s = .next (starved started)) ∧
        (p.packing = 1 → exec (.captureEvent ch) s = .next (starved { started with state := ended }))) ∧
      ∀ (n : CellNo) (rest : List CellNo), s.ex.spare = n :: rest → s.ex.reserve < rest.length + 1 →
        let q := match mode with
          | .speech => 0
          | .steady => min p.redundancy c.history.length
        let claimed := { u with ex := { u.ex with
          spare := rest
          keeping := tablePut s.ex.keeping n.val { role := .assembly ch, clash := ((s.keptAt n.val).map Kept.clash).getD false } } }
        let coded := ((List.range q).foldl (fun v j =>
          v.putCell n (blockOffset p.coding (p.packing + j)) (encodeBlock p.coding (c.history.getD j []))) claimed).putCell n
            (blockOffset p.coding 0) (encodeBlock p.coding f)
        let cap := { started with periodQ := q, starving := false }
        (2 ≤ p.packing → exec (.captureEvent ch) s = .next (coded.setCap ch { cap with assembly := some n })) ∧
        (p.packing = 1 →
          let header := [BitVec.ofNat 8 ch.val, p.coding.code, if cap.spurt then 1 else 0, 1] ++ bytes32 c.tsCounter ++
            bytes16 c.nextSeq ++ [BitVec.ofNat 8 q] ++
            (List.range 5).map (fun j => if j < q then BitVec.ofNat 8 (j + 1) else 0) ++ List.replicate 16 (0 : Byte)
          exec (.captureEvent ch) s = .next ((((coded.putCell n 0 header).handOver n 0x31).bump ch .parcelsSent).setCap ch
            { cap with nextSeq := c.nextSeq + 1, spurt := false, assembly := none, state := ended }))) ∧
    (c.state = .packing →
      (c.frames + 1 < p.packing → exec (.captureEvent ch) s = .next
        ((match c.assembly with
          | none => u
          | some n => u.putCell n (blockOffset p.coding c.frames) (encodeBlock p.coding f)).setCap ch
            { kept with frames := c.frames + 1 })) ∧
      (p.packing ≤ c.frames + 1 → c.assembly = none → exec (.captureEvent ch) s = .next
        (u.setCap ch { kept with frames := c.frames + 1, state := ended })))

/-- R89, R90, R91, R14: the P-th frame of a period that holds a cell is coded into its block, the header is written whole, the cell goes to
the host as OUT_PARCEL with the next sequence number, the parcels-sent counter gains 1, spurt pending is cleared, and the capture side
falls SILENT or goes on SENDING by its inactive run. The frame count stays at P, by the model's reading (log 23). -/
def Obligations.CaptureHandsOverTheParcel : Prop :=
  ∀ (ch : LineNo) (s : State) (n : CellNo), s.canTake (.capture ch) = true → (s.chan.get ch).state ≠ .closed →
    let c := s.cap.get ch
    let p := (s.chan.get ch).params
    let f := s.captureFrame ch c.periodMode
    let active := p.vadThreshold = 0 ∨ p.vadThreshold ≤ energy f
    let inactive := if c.periodMode = .steady ∨ active then 0 else min 255 (c.inactive + 1)
    let header := [BitVec.ofNat 8 ch.val, p.coding.code, if c.spurt then 1 else 0, BitVec.ofNat 8 p.packing] ++ bytes32 c.periodTs ++
      bytes16 c.nextSeq ++ [BitVec.ofNat 8 c.periodQ] ++
      (List.range 5).map (fun j => if j < c.periodQ then BitVec.ofNat 8 (j + 1) else 0) ++ List.replicate 16 (0 : Byte)
    c.state = .packing → c.assembly = some n → c.frames + 1 = p.packing →
      exec (.captureEvent ch) s = .next
        ((((((s.undue (.capture ch)).putCell n (blockOffset p.coding c.frames) (encodeBlock p.coding f)).putCell n 0 header).handOver n
          0x31).bump ch .parcelsSent).setCap ch { c with
            inactive := inactive, frames := c.frames + 1, nextSeq := c.nextSeq + 1, spurt := false, assembly := none,
            state := if c.periodMode = .steady ∨ inactive < max 1 p.hangover then .sending else .silent,
            history := (f :: c.history).take 3, tsCounter := c.tsCounter + 80 })

/-! ### Sample coding -/

/-- R102: a LIN16 sample is four times the internal one, low byte first, with its two lowest bits 0; any value decodes to its quarter
rounded down; encoding then decoding returns the sample. -/
def Obligations.LinearCodingIsExact : Prop :=
  (∀ x : Sample, (encodeLin x).toInt = 4 * x.toInt ∧ -32768 ≤ 4 * x.toInt ∧ 4 * x.toInt ≤ 32764 ∧
    (encodeLin x).getLsbD 0 = false ∧ (encodeLin x).getLsbD 1 = false ∧ decodeLin (encodeLin x) = x) ∧
  (∀ v : Half, 4 * (decodeLin v).toInt ≤ v.toInt ∧ v.toInt < 4 * (decodeLin v).toInt + 4 ∧ -8192 ≤ (decodeLin v).toInt ∧
    (decodeLin v).toInt ≤ 8191) ∧
  decodeLin 0x0003 = 0 ∧ (decodeLin 0xFFFF).toInt = -1 ∧ (decodeLin 0x8000).toInt = -8192 ∧
  (∀ f : Frame, encodeBlock .lin16 f = f.flatMap fun x => [(encodeLin x).extractLsb' 0 8, (encodeLin x).extractLsb' 8 8]) ∧
  ∀ (s : State) (n : CellNo) (off i : Nat), s.decodeSample n .lin16 off i =
    decodeLin (s.cellByte n (off + 2 * i + 1) ++ s.cellByte n (off + 2 * i))

/-- R98 to R101, R103, R28, R89: a µ-law and an A-law code decode by the manual's formulas, with u = c XOR FFh or 55h, sign u ≥ 128, segment
u / 16 mod 8 and mantissa u mod 16, and every code codes back to itself but the second code of 0 in µ-law. A sample coded and decoded keeps
its sign, and its decoded magnitude lies within half of its segment's step of the magnitude coded: of min(|x|, 8158) in µ-law, where the
step is 2·2^seg, and in A-law of 2·m + 1, with m = min(|floor(x / 2)|, 4095), where the step is 4 in segment 0 and 2·2^seg above it. A frame
coded into a block of a cell decodes to its samples coded and decoded one by one, and the block's own bytes alone are written. -/
def Obligations.CompandingAndBlocksKeepTheSamples : Prop :=
  ((∀ c : Byte,
     let u := (c ^^^ 0xFF).toNat
     let v := (c ^^^ 0x55).toNat
     let mu : Int := (2 * (u % 16) + 33) * 2 ^ (u / 16 % 8) - 33
     let a : Int := 2 * if v / 16 % 8 = 0 then 2 * (v % 16) + 1 else (2 * (v % 16) + 33) * 2 ^ (v / 16 % 8 - 1)
     (decodeMu c).toInt = (if 128 ≤ u then -mu else mu) ∧ (decodeA c).toInt = (if 128 ≤ v then a else -a) ∧
     (c ≠ 0x7F → encodeMu (decodeMu c) = c) ∧ (decodeMu c).toInt.natAbs ≤ 8031 ∧ encodeA (decodeA c) = c ∧
     2 ≤ (decodeA c).toInt.natAbs ∧ (decodeA c).toInt.natAbs ≤ 8064) ∧
   decodeMu 0x7F = 0 ∧ decodeMu 0xFF = 0 ∧ encodeMu 0 = 0xFF ∧ encodeA 0 = 0xD5 ∧ decodeA 0xD5 = 2 ∧ (decodeA 0x55).toInt = -2 ∧
   ∀ x : Sample,
     let muStep : Nat := 2 * 2 ^ ((encodeMu x ^^^ 0xFF).toNat / 16 % 8)
     let aSeg := (encodeA x ^^^ 0x55).toNat / 16 % 8
     let aStep : Nat := if aSeg = 0 then 4 else 2 * 2 ^ aSeg
     (0 ≤ x.toInt → 0 ≤ (decodeMu (encodeMu x)).toInt ∧ 0 < (decodeA (encodeA x)).toInt) ∧
     (x.toInt < 0 → (decodeMu (encodeMu x)).toInt ≤ 0 ∧ (decodeA (encodeA x)).toInt < 0) ∧
     2 * ((min x.toInt.natAbs 8158 : Nat) - ((decodeMu (encodeMu x)).toInt.natAbs : Int)).natAbs ≤ muStep ∧
     2 * ((2 * min (x.toInt / 2).natAbs 4095 + 1 : Nat) - ((decodeA (encodeA x)).toInt.natAbs : Int)).natAbs ≤ aStep) ∧
  ∀ (s : State) (n : CellNo) (coding : Coding) (block : Nat) (f : Frame), s.mem.wf = true → f.length = 80 → block < coding.capacity →
    let t := s.putBlock n coding block f
    t.decodeBlock n coding block = f.map (fun x => match coding with
      | .mu => decodeMu (encodeMu x)
      | .a => decodeA (encodeA x)
      | .lin16 => x) ∧
    (∀ a, (a < cellAddr n (32 + coding.blockSize * block) ∨ cellAddr n (32 + coding.blockSize * (block + 1)) ≤ a) →
      t.byteAt a = s.byteAt a) ∧
    t = { s with mem := t.mem }

/-- R104, R105, R106, R83: the energy figure is the mean magnitude rounded down, 0..8192 for a frame; it does not see order or sign;
silence has 0 and 80 samples of −8192 have 8192; a SPEECH frame is active when the threshold is 0 or does not exceed it. A gain of g
sixteenths is exact, truncated toward zero and saturated, the identity at 16 and silence at 0; scaling by quarters is exact and truncated and
never saturates. -/
def Obligations.EnergyGainAndScaling : Prop :=
  ((∀ f : Frame, 80 * energy f ≤ (f.map fun x => x.toInt.natAbs).sum ∧ (f.map fun x => x.toInt.natAbs).sum < 80 * energy f + 80) ∧
   (∀ f : Frame, f.length = 80 → (f.map fun x => x.toInt.natAbs).sum ≤ 655360 ∧ energy f ≤ 8192) ∧
   (∀ f g : Frame, (f.map fun x => x.toInt.natAbs).Perm (g.map fun x => x.toInt.natAbs) → energy f = energy g) ∧
   energy (List.replicate 80 0) = 0 ∧ energy (List.replicate 80 (BitVec.ofInt 14 (-8192))) = 8192 ∧
   ∀ (threshold : Nat) (f : Frame), frameActive threshold f = true ↔ threshold = 0 ∨ threshold ≤ energy f) ∧
  (∀ (g : Nat) (x : Sample), g ≤ 32 → (gainSample g x).toInt = max (-8192) (min 8191 ((x.toInt * (g : Int)).tdiv 16))) ∧
  (∀ x : Sample, gainSample 16 x = x ∧ gainSample 0 x = 0) ∧
  (∀ (g : Nat) (x : Sample), g ≤ 15 → (gainSample g x).toInt = (x.toInt * (g : Int)).tdiv 16) ∧
  ∀ (k : Nat) (f : Frame), k ≤ 3 →
    (scaleQuarters k f).map BitVec.toInt = f.map (fun x => (x.toInt * (k : Int)).tdiv 4) ∧
    (∀ y ∈ scaleQuarters k f, -6144 ≤ y.toInt ∧ y.toInt ≤ 6143) ∧
    (k = 0 → scaleQuarters k f = List.replicate f.length 0)

/-! ### Orders -/

/-- R110 to R113, R189: the four port orders: what each answers in each state, and all that it changes. That SET_POLARITY with an invalid
value is BAD_PARAM in DOWN as well is the model's reading (log 25). -/
def Obligations.PortOrdersFollowTheirRules : Prop :=
  ∀ (s : State) (p : LineNo),
    let r := s.port.get p
    (r.state = .down → s.orderPortUp p = (s.setPort p { r with
      state := .idle, filtered := false, differing := 0, breakCount := none, gapCount := none, pulses := 0 }, .done)) ∧
    (r.state ≠ .down → s.orderPortUp p = (s, .busy)) ∧
    (r.state = .down ∨ r.state = .idle → s.orderPortDown p = (s.setPort p { r with
      state := .down, polarity := .forward, filtered := false, differing := 0, breakCount := none, gapCount := none, pulses := 0,
      output := 0 }, .done)) ∧
    (r.state = .offhook → s.orderPortDown p =
      ((s.setTone p { s.tone.get p with run := none, running := false, half := false }).setPort p { r with
        state := .down, polarity := .forward, filtered := false, differing := 0, breakCount := none, gapCount := none, pulses := 0,
        output := 0 }, .done)) ∧
    (∀ value : Byte, value ≠ 0 → value ≠ 1 → s.orderSetPolarity p value = (s, .badParam)) ∧
    (∀ value : Byte, value = 0 ∨ value = 1 → r.state = .down → s.orderSetPolarity p value = (s, .busy)) ∧
    (r.state ≠ .down → s.orderSetPolarity p 0 = (s.setPort p { r with polarity := .forward }, .done) ∧
      s.orderSetPolarity p 1 = (s.setPort p { r with polarity := .reversed }, .done)) ∧
    ∀ (filter : Nat) (t : BreakTiming),
      let f := if 16 ≤ filter then 16 else if 8 ≤ filter then 8 else if 4 ≤ filter then 4 else 0
      let u : BreakTiming := {
        pulseMin := max 10 (min 40 t.pulseMin), flashMin := max 60 (min 400 t.flashMin),
        hangupMin := max 300 (min 2000 t.hangupMin), digitGap := max 100 (min 800 t.digitGap) }
      (u.hangupMin ≤ u.flashMin → s.orderSetHookTiming p filter t = (s, .badParam)) ∧
      (u.flashMin < u.hangupMin → s.orderSetHookTiming p filter t =
        (s.setPort p { r with filter := f, ordered := u }, if f = filter ∧ u = t then .done else .adjusted))

/-- R111, R139, R145, R147, R152: PORT_DOWN on a RINGING port and RING_STOP end its ring order, and all that they change is stated: no run,
no burst, no place on the wait list, no grant and no identity in progress. A grant held in BURST becomes free, or passes to the head of the
wait list, which leaves the list and starts its burst with the full on-half. PORT_DOWN leaves the port DOWN with the hook state that R111
gives and no mark; RING_STOP leaves it IDLE, with an IDENT_ABORTED mark of cause STOP and the bits sent whole, none in PENDING, when it cuts
an identity off in any sub-phase, and with no mark else; on a port that is not RINGING it is BUSY and changes nothing. That an identity
status of TAIL or SENT stays is the model's reading (log 12), and that the new holder has no tick left at the instant is too (log 11). -/
def Obligations.RingingEndsByOrder : Prop :=
  ∀ (s : State) (p : LineNo),
    let g := s.ring.get p
    let i := s.ident.get p
    let cut := i.status = .pending ∨ i.status = .sending
    let holder := fun h => if s.arb.grantA = some p then { s.arb with grantA := h } else { s.arb with grantB := h }
    let freed : State := match g.sub, s.arb.waitList with
      | .burst, [] => { s with arb := holder none }
      | .burst, q :: qs =>
        { (s.undue (.tick q)).setRing q { s.ring.get q with
            sub := .burst, level := true, drive := 0, trip := 0, bursts := min 65535 ((s.ring.get q).bursts + 1)
            run := (s.ring.get q).run.map fun c => { c with count := c.duration c.pos } } with
          arb := { holder (some q) with waitList := qs } }
      | .waitGrant, list => { s with arb := { s.arb with waitList := list.filter (· ≠ p) } }
      | _, _ => s
    let ended := (freed.setRing p { g with run := none, sub := .none, level := false }).setIdent p
      { i with status := if cut then .none else i.status, buffer := [], hold := false }
    ((s.port.get p).state ≠ .ringing → s.orderRingStop p = (s, .busy)) ∧
    ((s.port.get p).state = .ringing → s.linesOk →
      (ended.ring.get p).run = none ∧ (ended.ring.get p).sub = .none ∧ p ∉ ended.arb.waitList ∧ ended.arb.grantA ≠ some p ∧
      ended.arb.grantB ≠ some p ∧ (ended.ident.get p).status ≠ .pending ∧ (ended.ident.get p).status ≠ .sending ∧
      s.orderPortDown p = (ended.setPort p { s.port.get p with
        state := .down, polarity := .forward, filtered := false, differing := 0, breakCount := none, gapCount := none, pulses := 0,
        output := 0 }, .done) ∧
      (¬ cut → s.orderRingStop p = (ended.setPort p { s.port.get p with state := .idle }, .done)) ∧
      (cut → s.orderRingStop p = ((ended.setPort p { s.port.get p with state := .idle }).giveMark
        { kind := .identAborted, line := BitVec.ofNat 8 p.val, detail16 := 1, time := s.now,
          detail32 := BitVec.ofNat 32
            (if i.status = .sending then min (3 * i.sent / 20) (480 + 10 * i.buffer.length) else 0) }, .done)))

/-- R23 to R26, R80, R189: CHANNEL_OPEN judges in its order, reads its block with the defaults for FFh, brings each parameter into range,
and leaves a WAITING channel in SPEECH with its target, and a SILENT capture side with the initial sequence and timestamp; the fields of a
period not yet begun stay as they were, by the model's choice (log 7), and the port's far runs will start afresh (log 26). The codings have
the codes 01h MU, 02h A and 03h LIN16. -/
def Obligations.ChannelOpenStoresItsParameters : Prop :=
  ∀ (s : State) (ch : LineNo) (n : CellNo) (count off : Nat),
    let byte := fun i => (s.cellByte n (off + i)).toNat
    let flags := s.cellByte n (off + 13)
    let default := fun v d : Nat => if v = 255 then d else v
    (Coding.mu.code = 0x01 ∧ Coding.a.code = 0x02 ∧ Coding.lin16.code = 0x03) ∧
    ((s.chan.get ch).state ≠ .closed → s.orderChannelOpen ch n count off = (s, .alreadyOpen)) ∧
    ((s.chan.get ch).state = .closed → (off < 32 + 16 * count ∨ 512 < off + 20 ∨ byte 0 = 0 ∨ 3 < byte 0) →
      s.orderChannelOpen ch n count off = (s, .badParam)) ∧
    ∀ coding : Coding, (s.chan.get ch).state = .closed → 32 + 16 * count ≤ off → off + 20 ≤ 512 → s.cellByte n off = coding.code →
      let raw : OpenParams := {
        coding := coding, packing := byte 1, redundancy := byte 2, minFrames := default (byte 4) 2, maxFrames := default (byte 5) 12,
        baseFrames := default (byte 3) 2, steadyMargin := byte 6, steadyTrigger := default (byte 7) 20,
        vadThreshold := (s.cellHalf n (off + 8)).toNat, hangover := byte 10, playoutGain := default (byte 11) 16,
        captureGain := default (byte 12) 16, autoSteady := flags.getLsbD 0, muteDigits := flags.getLsbD 1,
        initSeq := s.cellHalf n (off + 14), initTs := s.cellWord n (off + 16) }
      let packing := max 1 (min coding.capacity raw.packing)
      let minFrames := max 1 (min 30 raw.minFrames)
      let q : OpenParams := { raw with
        packing := packing, redundancy := min (min 3 raw.redundancy) (coding.capacity - packing), minFrames := minFrames,
        maxFrames := max minFrames (min 30 raw.maxFrames), baseFrames := min 10 raw.baseFrames, steadyMargin := min 10 raw.steadyMargin,
        steadyTrigger := max 5 (min 50 raw.steadyTrigger), vadThreshold := min 8191 raw.vadThreshold, hangover := min 50 raw.hangover,
        playoutGain := min 32 raw.playoutGain, captureGain := min 32 raw.captureGain }
      s.orderChannelOpen ch n count off =
        ((((s.setChan ch {
            state := .waiting, mode := .speech, cursor := 0, list := [], j16 := 0, prevTransit := none,
            target := max q.minFrames (min q.maxFrames q.baseFrames), steady := none, hold := 0, excess := 0, trim := false,
            lateRun := 0, earlyRun := 0, conceal := 0, last := List.replicate 80 0, params := q,
            counters := List.replicate 12 0, rollover := 0 }).setCap ch { s.cap.get ch with
            state := .silent, assembly := none, spurt := false, starving := false, inactive := 0, history := [],
            nextSeq := q.initSeq, tsCounter := q.initTs }).setPort ch { s.port.get ch with played := [] }).setVerdict ch
              { s.verdict.get ch with reopened := true },
          if q = raw then .done else .adjusted)

/-- R27, R93, R39, R43, R190, R19: CHANNEL_CLOSE on an open channel drops every entry in list order, gives back an assembly cell as
RETURNED, and leaves the channel CLOSED with its mode, cursor, jitter figure, target, steady frames and counters as they were; on a CLOSED
one it does nothing. SNAPSHOT writes its 64-byte block into the annex in every channel state, and with its clear option clears the counters
and the rollover mask alone; SET_RESERVE sets the reserve, at most 4. -/
def Obligations.CloseSnapshotAndReserveOrders : Prop :=
  (∀ (s : State) (ch : LineNo),
     let c := s.chan.get ch
     let u := c.list.foldl (fun v e => v.dropRef e.cell) s
     let v := match (s.cap.get ch).assembly with
       | none => u
       | some n => u.handOver n 0x33
     (c.state = .closed → s.orderChannelClose ch = (s, .notOpen)) ∧
     (c.state ≠ .closed → s.orderChannelClose ch =
       ((v.setChan ch { c with state := .closed, list := [], hold := 0, excess := 0, trim := false }).setCap ch { s.cap.get ch with
         state := .closed, assembly := none, spurt := false, starving := false, history := [] }, .done))) ∧
  (∀ (s : State) (ch : LineNo) (n : CellNo) (count off : Nat) (clear : Bool),
    let c := s.chan.get ch
    let block := (List.range 12).flatMap (fun k => bytes16 (c.counters.getD k 0)) ++ bytes16 (c.rollover.setWidth 16) ++
      bytes16 (BitVec.ofNat 16 c.j16) ++ [BitVec.ofNat 8 c.target, BitVec.ofNat 8 (c.steady.getD 0), BitVec.ofNat 8 c.list.length,
        match c.state with
          | .closed => 0
          | .waiting => 1
          | .flowing => 2
          | .gap => 3,
        match c.mode with
          | .speech => 0
          | .steady => 1] ++ List.replicate 31 (0 : Byte)
    (off < 32 + 16 * count ∨ 512 < off + 64 → s.orderSnapshot ch n count off clear = (s, .badParam)) ∧
    (32 + 16 * count ≤ off → off + 64 ≤ 512 → s.orderSnapshot ch n count off clear =
      (if clear then (s.putCell n off block).setChan ch { c with counters := List.replicate 12 0, rollover := 0 }
        else s.putCell n off block, .done))) ∧
  ∀ (s : State) (v : Nat),
    (v ≤ 4 → s.orderSetReserve v = ({ s with ex := { s.ex with reserve := v } }, .done)) ∧
    (4 < v → s.orderSetReserve v = ({ s with ex := { s.ex with reserve := 4 } }, .adjusted))

/-- R73, R72, R74, R76, R77: CHANNEL_STEADY and CHANNEL_SPEECH in every state and mode: the steady frames and the hold they leave, their
answers, and the mode mark that entry and return give. -/
def Obligations.SteadyAndSpeechOrders : Prop :=
  ∀ (s : State) (ch : LineNo) (explicit : Option Nat),
    let c := s.chan.get ch
    let anchored := c.state = .flowing ∨ c.state = .gap
    let wanted := match explicit with
      | none => min 30 (c.target + c.params.steadyMargin)
      | some v => if v < c.target then c.target else min 30 v
    let changed := match explicit with
      | none => false
      | some v => decide (v < c.target ∨ 30 < v)
    let present := c.steady.getD 0
    (c.state = .closed → s.orderChannelSteady ch explicit = (s, .notOpen) ∧ s.orderChannelSpeech ch = (s, .notOpen)) ∧
    (c.state ≠ .closed → c.target ≤ 30 → c.mode = .speech →
      s.orderChannelSpeech ch = (s, .done) ∧
      s.orderChannelSteady ch explicit =
        ((s.setChan ch { c with
            steady := some wanted, hold := c.hold + (if anchored then wanted - c.target else 0), mode := .steady, excess := 0,
            trim := false }).giveMark
          { kind := .modeSteady, line := BitVec.ofNat 8 ch.val, detail16 := 0, time := s.now,
            detail32 := BitVec.ofNat 32 (wanted + 65536 * (if anchored then wanted - c.target else 0)) },
          if changed then .adjusted else .done)) ∧
    (c.state ≠ .closed → c.target ≤ 30 → c.mode = .steady →
      (present < wanted → s.orderChannelSteady ch explicit =
        (s.setChan ch { c with steady := some wanted, hold := c.hold + (if anchored then wanted - present else 0) },
          if changed then .adjusted else .done)) ∧
      (present = wanted → s.orderChannelSteady ch explicit = (s, if changed then .adjusted else .done)) ∧
      (wanted < present → s.orderChannelSteady ch explicit = (s, .adjusted)) ∧
      s.orderChannelSpeech ch =
        ((s.setChan ch { c with mode := .speech, steady := none, hold := 0 }).giveMark
          { kind := .modeSpeech, line := BitVec.ofNat 8 ch.val, detail16 := 0, time := s.now,
            detail32 := BitVec.ofNat 32 (present + 65536 * c.hold) }, .done))

/-- R135, R136, R138, R148, R130, R131: RING on an IDLE port with a cadence in 0..15, an identity of at most 200 bytes in the annex and a
record that is not empty starts the ring run at its first half that is not 0, with the drive value in 9..49 and the identity and its
checksum in the buffer; a cadence tick of the port due at that instant is not taken by the new run. An off-half rests; an on-half takes
grant A, or B, and begins the first burst, or waits with no burst begun, at the end of the list but ahead of higher ports with the same wait
stamp. Nothing else of the port or of the part changes. Otherwise RING changes nothing and answers the first test that fails. -/
def Obligations.RingOrderStartsTheRun : Prop :=
  ∀ (s : State) (p : LineNo) (n : CellNo) (count cadence freq len off : Nat),
    let run := s.orderRing p n count cadence freq len off
    let rec0 := s.cadenceRecord cadence
    let misplaced := 0 < len ∧ (off < 32 + 16 * count ∨ 512 < off + len)
    let body := (List.range len).map fun i => s.cellByte n (off + i)
    ((s.port.get p).state ≠ .idle → run = (s, .busy)) ∧
    ((s.port.get p).state = .idle → 15 < cadence → run = (s, .badParam)) ∧
    ((s.port.get p).state = .idle → cadence ≤ 15 → 200 < len ∨ misplaced → run = (s, .badParam)) ∧
    ((s.port.get p).state = .idle → cadence ≤ 15 → len ≤ 200 → ¬ misplaced → (∀ d ∈ rec0.durations, d = 0) →
      run = (s, .emptyCadence)) ∧
    ((s.port.get p).state = .idle → cadence ≤ 15 → len ≤ 200 → ¬ misplaced → (∃ d ∈ rec0.durations, d ≠ 0) →
      run.2 = (if freq < 9 ∨ 49 < freq then .adjusted else .started) ∧
      ∃ (first : CadenceRun) (sum : Byte),
        first.once = rec0.once ∧ first.offFirst = rec0.offFirst ∧ first.durations = rec0.durations ∧
        first.duration first.pos ≠ 0 ∧ (∀ q, q < first.pos → first.duration q = 0) ∧ first.count = first.duration first.pos ∧
        ((body ++ [sum]).map BitVec.toNat).sum % 256 = 0 ∧
        let port := { s.port.get p with state := .ringing, breakCount := none, gapCount := none, pulses := 0 }
        let ident := { Ident.reset with
          status := if len = 0 then .none else .pending
          buffer := if len = 0 then [] else body ++ [sum] }
        let u := ((s.undue (.tick p)).setPort p port).setIdent p ident
        let ring := { s.ring.get p with run := some first, freq := max 9 (min 49 freq), trip := 0, bursts := 0 }
        let burst := u.setRing p { ring with sub := .burst, level := true, drive := 0, bursts := 1 }
        u.canTake (.tick p) = false ∧ (∀ e, e ≠ .tick p → u.canTake e = s.canTake e) ∧
        (first.onHalf = false → run.1 = u.setRing p { ring with sub := .rest }) ∧
        (first.onHalf = true → s.arb.grantA = none → run.1 = { burst with arb := { s.arb with grantA := some p } }) ∧
        (first.onHalf = true → s.arb.grantA ≠ none → s.arb.grantB = none →
          run.1 = { burst with arb := { s.arb with grantB := some p } }) ∧
        (first.onHalf = true → s.arb.grantA ≠ none → s.arb.grantB ≠ none → ∃ front back : List LineNo,
          s.arb.waitList = front ++ back ∧
          run.1 = { u.setRing p { ring with sub := .waitGrant, waitStamp := s.clock.boundaries } with
            arb := { s.arb with waitList := front ++ p :: back } } ∧
          (∀ q ∈ front, ¬ ((s.ring.get q).waitStamp = s.clock.boundaries ∧ p < q)) ∧
          ∀ q, back.head? = some q → (s.ring.get q).waitStamp = s.clock.boundaries ∧ p < q))

/-- R156, R157, R158, R154, R159, R191: TONE on an OFFHOOK port copies the record's components with their limits, starts the cadence it
names or the overriding one at its first half that is not 0, with both phases 0; TONE_STOP ends a running tone without a mark. Record k
stands at 0300h + 16·k: f1, f2, a1 and a2 at offsets 0, 2, 4 and 6, and the cadence index at 8. -/
def Obligations.ToneOrdersStartAndStop : Prop :=
  ∀ (s : State) (p : LineNo) (index : Nat) (override : Option Nat),
    let run := s.orderTone p index override
    let r := s.toneRecord index
    let cadence := override.getD r.cadence
    let rec0 := s.cadenceRecord cadence
    ((s.port.get p).state ≠ .offhook → run = (s, .busy)) ∧
    ((s.port.get p).state = .offhook → 15 < index ∨ 15 < cadence → run = (s, .badParam)) ∧
    ((s.port.get p).state = .offhook → index ≤ 15 → cadence ≤ 15 → (∀ d ∈ rec0.durations, d = 0) → run = (s, .emptyCadence)) ∧
    ((s.port.get p).state = .offhook → index ≤ 15 → cadence ≤ 15 → (∃ d ∈ rec0.durations, d ≠ 0) →
      ∃ first : CadenceRun, rec0.start = some first ∧
        run = ((s.setTone p {
            running := true, index := index, cadence := cadence, f1 := min r.f1 3999, a1 := min r.a1 8191, f2 := min r.f2 3999,
            a2 := min r.a2 8191, inc1 := (min r.f1 3999 * 65536 + 4000) / 8000, inc2 := (min r.f2 3999 * 65536 + 4000) / 8000,
            ph1 := 0, ph2 := 0, run := some first, half := first.onHalf }).undue (.tick p),
          if 3999 < r.f1 ∨ 3999 < r.f2 ∨ 8191 < r.a1 ∨ 8191 < r.a2 then .adjusted else .started)) ∧
    ((s.tone.get p).running = false → s.orderToneStop p = (s, .busy)) ∧
    ((s.tone.get p).running = true → s.orderToneStop p =
      (s.setTone p { s.tone.get p with run := none, running := false, half := false }, .done)) ∧
    ∀ k, let byte := fun i => s.byteAt (0x300 + 16 * k + i)
      s.toneRecord k = {
        f1 := (byte 1 ++ byte 0).toNat, f2 := (byte 3 ++ byte 2).toNat, a1 := (byte 5 ++ byte 4).toNat, a2 := (byte 7 ++ byte 6).toNat
        cadence := (byte 8).toNat }

/-! ### Ports -/

/-- R115, R116, R118, R119, R125: a scan of a DOWN port does nothing; one of an IDLE port runs the hook filter, and a filtered off-hook level
seizes the line: OFFHOOK with every count clear, and a SEIZED mark. -/
def Obligations.ScanSeizesAnIdlePort : Prop :=
  ∀ (p : LineNo) (hook trip : Bool) (s : State), s.canTake (.scan p) = true →
    let r := s.port.get p
    let u := s.undue (.scan p)
    let f : Port := if hook = r.filtered then { r with differing := 0 }
      else if r.filter ≤ r.differing + 1 then { r with filtered := hook, differing := 0 }
      else { r with differing := r.differing + 1 }
    (r.state = .down → exec (.lineScan p hook trip) s = .next u) ∧
    (r.state = .idle → f.filtered = false → exec (.lineScan p hook trip) s = .next (u.setPort p f)) ∧
    (r.state = .idle → f.filtered = true → exec (.lineScan p hook trip) s = .next
      ((u.setPort p { r with
          state := .offhook, filtered := true, differing := 0, breakCount := none, gapCount := none, pulses := 0 }).giveMark
        { kind := .seized, line := BitVec.ofNat 8 p.val, detail16 := 0, time := s.now, detail32 := 0 }))

/-- R115, R116, R117, R120, R122, R123: a scan of an OFFHOOK port that changes the filtered level starts a break or makes, and the make is a
glitch, a dial pulse or a flash by the break length and the break timing set; a count that starts takes no expiry of the same instant. -/
def Obligations.OffhookScanBreaksAndMakes : Prop :=
  ∀ (p : LineNo) (hook trip : Bool) (s : State), s.canTake (.scan p) = true → (s.port.get p).state = .offhook →
    let r := s.port.get p
    let u := s.undue (.scan p)
    let flips := hook ≠ r.filtered ∧ r.filter ≤ r.differing + 1
    let changed := { r with filtered := hook, differing := 0 }
    let scan := exec (.lineScan p hook trip) s
    let mark := fun (v : State) (kind : MarkKind) (d16 d32 : Nat) => v.giveMark
      { kind := kind, line := BitVec.ofNat 8 p.val, detail16 := BitVec.ofNat 16 d16, time := s.now, detail32 := BitVec.ofNat 32 d32 }
    (hook = r.filtered → scan = .next (u.setPort p { r with differing := 0 })) ∧
    (hook ≠ r.filtered → ¬ flips → scan = .next (u.setPort p { r with differing := r.differing + 1 })) ∧
    (flips → hook = false → scan = .next
      ((u.setPort p { changed with timing := r.ordered, breakCount := some 0, gapCount := none }).undue (.timer p))) ∧
    ∀ b, flips → hook = true → r.breakCount = some b →
      (b < r.timing.pulseMin → r.pulses = 0 → scan = .next (u.setPort p { changed with breakCount := none })) ∧
      (b < r.timing.pulseMin → 0 < r.pulses → scan = .next
        ((u.setPort p { changed with breakCount := none, gapCount := some 0 }).undue (.timer p))) ∧
      (r.timing.pulseMin ≤ b → b < r.timing.flashMin → scan = .next
        ((u.setPort p { changed with breakCount := none, pulses := min 15 (r.pulses + 1), gapCount := some 0 }).undue (.timer p))) ∧
      (r.timing.pulseMin ≤ b → r.timing.flashMin ≤ b →
        let v := u.setPort p { changed with breakCount := none, gapCount := none, pulses := 0 }
        (r.pulses = 0 → scan = .next (mark v .flash b 0)) ∧
        (1 ≤ r.pulses → r.pulses ≤ 9 → scan = .next (mark (mark v .digitPulse r.pulses r.pulses) .flash b 0)) ∧
        (r.pulses = 10 → scan = .next (mark (mark v .digitPulse 0 10) .flash b 0)) ∧
        (11 ≤ r.pulses → scan = .next (mark (mark v .dialFault r.pulses 0) .flash b 0)))

/-- R117, R121, R123, R125: a port timer expiry raises a running count below its limit; the break count at hangup_min clears the line, with
the pulses and the tone gone and a CLEARED mark; the digit-gap count at digit_gap reports the digit. CLEARED and DIGIT_GAP_EXPIRY are those
two expiries by name, and nothing while the count stands lower (that last is the model's choice, log 4). -/
def Obligations.PortTimerExpiryCountsAndReports : Prop :=
  ∀ (p : LineNo) (s : State), s.canTake (.timer p) = true →
    let r := s.port.get p
    let u := s.undue (.timer p)
    let timer := exec (.portTimerExpiry p) s
    let mark := fun (v : State) (kind : MarkKind) (d16 d32 : Nat) => v.giveMark
      { kind := kind, line := BitVec.ofNat 8 p.val, detail16 := BitVec.ofNat 16 d16, time := s.now, detail32 := BitVec.ofNat 32 d32 }
    (r.breakCount = none → r.gapCount = none → timer = .next u) ∧
    (∀ b, r.breakCount = some b → r.gapCount = none → b + 1 < r.timing.hangupMin →
      timer = .next (u.setPort p { r with breakCount := some (b + 1) }) ∧ exec (.cleared p) s = .next s) ∧
    (∀ g, r.breakCount = none → r.gapCount = some g → g + 1 < r.timing.digitGap →
      timer = .next (u.setPort p { r with gapCount := some (g + 1) }) ∧ exec (.digitGapExpiry p) s = .next s) ∧
    (∀ b, r.breakCount = some b → r.timing.hangupMin ≤ b + 1 →
      exec (.cleared p) s = timer ∧
      timer = .next (mark ((u.setPort p { r with state := .idle, breakCount := none, gapCount := none, pulses := 0 }).setTone p
        { s.tone.get p with run := none, running := false, half := false }) .cleared r.pulses r.timing.hangupMin)) ∧
    (∀ g, r.breakCount = none → r.gapCount = some g → r.timing.digitGap ≤ g + 1 →
      let v := u.setPort p { r with gapCount := none, pulses := 0 }
      exec (.digitGapExpiry p) s = timer ∧
      (r.pulses = 0 → timer = .next v) ∧
      (1 ≤ r.pulses → r.pulses ≤ 9 → timer = .next (mark v .digitPulse r.pulses r.pulses)) ∧
      (r.pulses = 10 → timer = .next (mark v .digitPulse 0 10)) ∧
      (11 ≤ r.pulses → timer = .next (mark v .dialFault r.pulses 0)))

/-! ### Ringing and identity -/

/-- R126, R141, R142, R143, R152, R153: in BURST the sixth active TRIPn sample in a row is a ring trip, an inactive one starts the count
again; in REST, WAIT_GRANT and IDENT a filtered off-hook level is. A ring trip leaves the port OFFHOOK with no run, no grant and no place on
the wait list, no identity in progress, and gives an ANSWERED mark with the sub-phase and the bursts started, behind an IDENT_ABORTED mark
with the bits sent whole, none in PENDING, when it cuts an identity off in any sub-phase, and else the only one. A grant held in BURST
becomes free, or passes to the head of the wait list, which leaves the list and starts its burst with the full on-half. Nothing else
changes. That an identity status of TAIL or SENT stays, and that the new holder has no tick left at the instant, is the model's reading (log
12, log 11). -/
def Obligations.RingingScanTrips : Prop :=
  ∀ (p : LineNo) (hook trip : Bool) (s : State), s.canTake (.scan p) = true → (s.port.get p).state = .ringing →
    let r := s.port.get p
    let g := s.ring.get p
    let u := s.undue (.scan p)
    let f : Port := if hook = r.filtered then { r with differing := 0 }
      else if r.filter ≤ r.differing + 1 then { r with filtered := hook, differing := 0 }
      else { r with differing := r.differing + 1 }
    let scan := exec (.lineScan p hook trip) s
    let tripped := { f with state := .offhook, filtered := true, differing := 0, breakCount := none, gapCount := none, pulses := 0 }
    let i := s.ident.get p
    let cut := i.status = .pending ∨ i.status = .sending
    let holder := fun h => if s.arb.grantA = some p then { s.arb with grantA := h } else { s.arb with grantB := h }
    let freed : State := match g.sub, s.arb.waitList with
      | .burst, [] => { u with arb := holder none }
      | .burst, q :: qs =>
        { (u.undue (.tick q)).setRing q { s.ring.get q with
            sub := .burst, level := true, drive := 0, trip := 0, bursts := min 65535 ((s.ring.get q).bursts + 1)
            run := (s.ring.get q).run.map fun c => { c with count := c.duration c.pos } } with
          arb := { holder (some q) with waitList := qs } }
      | .waitGrant, list => { u with arb := { s.arb with waitList := list.filter (· ≠ p) } }
      | _, _ => u
    let ended := ((freed.setPort p tripped).setRing p { g with run := none, sub := .none, level := false }).setIdent p
      { i with status := if cut then .none else i.status, buffer := [], hold := false }
    let code : Half := match g.sub with
      | .none => 0
      | .burst => 1
      | .rest => 2
      | .waitGrant => 3
      | .ident => 4
    let answered : Mark :=
      { kind := .answered, line := BitVec.ofNat 8 p.val, detail16 := code, time := s.now, detail32 := BitVec.ofNat 32 g.bursts }
    (g.sub = .burst → trip = false → scan = .next ((u.setPort p f).setRing p { g with trip := 0 })) ∧
    (g.sub = .burst → trip = true → g.trip < 5 → scan = .next ((u.setPort p f).setRing p { g with trip := g.trip + 1 })) ∧
    (g.sub = .rest ∨ g.sub = .waitGrant ∨ g.sub = .ident → f.filtered = false → scan = .next (u.setPort p f)) ∧
    (s.linesOk →
      (g.sub = .burst ∧ trip = true ∧ 5 ≤ g.trip) ∨ ((g.sub = .rest ∨ g.sub = .waitGrant ∨ g.sub = .ident) ∧ f.filtered = true) →
      (ended.ring.get p).run = none ∧ (ended.ring.get p).sub = .none ∧ p ∉ ended.arb.waitList ∧ ended.arb.grantA ≠ some p ∧
      ended.arb.grantB ≠ some p ∧ (ended.ident.get p).status ≠ .pending ∧ (ended.ident.get p).status ≠ .sending ∧
      (¬ cut → scan = .next (ended.giveMark answered)) ∧
      (cut → scan = .next ((ended.giveMark
        { kind := .identAborted, line := BitVec.ofNat 8 p.val, detail16 := 0, time := s.now,
          detail32 := BitVec.ofNat 32
            (if i.status = .sending then min (3 * i.sent / 20) (480 + 10 * i.buffer.length) else 0) }).giveMark answered)))


/-- R137, R138, R139, R140, R150: the tick that ends a burst releases the grant. While a port waits it passes to the head of the wait list
within the event: that port leaves the list and starts its burst with RINGn high; GRANT_PASS is that tick by name, and nothing when no burst
ends while a port waits (log 4). With nobody waiting the grant becomes free. Either way the port that released is then: at the end of a
run's first burst with identity PENDING, in REST with the identity hold begun and a delay of 50; else at an off-half in REST; at an on-half
in BURST again on a free grant, A before B, or, when the grant has passed on, in WAIT_GRANT behind the ports that wait; and at the end of a
ONCE run IDLE with RING_DONE. Nothing else changes. A port that finds both grants held waits at the end of the list, ahead of higher ports
with the same stamp; one that takes a grant has the full on-half as its segment count. That the new holder has no tick left at the instant,
that a run which ends with a burst leaves its identity status as it stands, and that a port which asks again goes ahead of a higher port
with the same stamp, are the model's (log 11, log 12, log 27). In BURST, when the drive count has reached N + 1, RINGn changes level and the
count returns to 0; otherwise there is no toggle. -/
def Obligations.GrantsPassAndRingDriveToggles : Prop :=
  (∀ (p q : LineNo) (rest : List LineNo) (s : State), s.linesOk → s.canTake (.tick p) = true → s.arb.waitList = q :: rest →
     ((s.ring.get p).sub = .burst → (s.ring.get p).segment ≤ 1 → exec (.grantPass p) s = exec (.cadenceTick p) s ∧
       ∃ t, exec (.grantPass p) s = .next t ∧ (t.ring.get q).sub = .burst ∧ (t.ring.get q).level = true ∧ (t.ring.get q).drive = 0 ∧
         (t.ring.get q).trip = 0 ∧ (t.ring.get q).bursts = min 65535 ((s.ring.get q).bursts + 1) ∧
         (t.ring.get q).run = ((s.ring.get q).run.map fun c => { c with count := c.duration c.pos }) ∧ q ∉ t.arb.waitList ∧
         (t.ring.get p).sub ≠ .burst ∧ (s.arb.grantA = some p → t.arb.grantA = some q ∧ t.arb.grantB = s.arb.grantB) ∧
         (s.arb.grantB = some p → t.arb.grantB = some q ∧ t.arb.grantA = s.arb.grantA) ∧
         t.chan = s.chan ∧ t.cap = s.cap ∧ t.tone = s.tone ∧ t.verdict = s.verdict ∧ t.clock = s.clock ∧ t.bus = s.bus ∧
         t.pending = s.pending) ∧
     ((s.ring.get p).sub ≠ .burst ∨ 1 < (s.ring.get p).segment → exec (.grantPass p) s = .next s)) ∧
  (∀ (p : LineNo) (s : State) (c : CadenceRun), s.canTake (.tick p) = true → s.arb.waitList = [] ∨ s.linesOk →
    let g := s.ring.get p
    let i := s.ident.get p
    let next := fun pos => { c with pos := pos, count := c.duration pos }
    let holder := fun h => if s.arb.grantA = some p then { s.arb with grantA := h } else { s.arb with grantB := h }
    let u : State := match s.arb.waitList with
      | [] => { s.undue (.tick p) with arb := holder none }
      | q :: qs =>
        { ((s.undue (.tick p)).undue (.tick q)).setRing q { s.ring.get q with
            sub := .burst, level := true, drive := 0, trip := 0, bursts := min 65535 ((s.ring.get q).bursts + 1)
            run := (s.ring.get q).run.map fun d => { d with count := d.duration d.pos } } with
          arb := { holder (some q) with waitList := qs } }
    let tick := exec (.cadenceTick p) s
    g.sub = .burst → g.run = some c → c.count ≤ 1 → s.arb.grantA = some p ∨ s.arb.grantB = some p →
      (i.status = .pending → i.hold = false → tick = .next ((u.setRing p { g with
        level := false, sub := .rest,
        run := some (match c.nextHalf with
          | some pos => if c.isOn pos then { c with count := 0 } else next pos
          | none => { c with count := 0 }) }).setIdent p { i with delay := 50, hold := true })) ∧
      (i.status ≠ .pending ∨ i.hold = true →
        (∀ pos, c.nextHalf = some pos → c.isOn pos = false → tick = .next
          (u.setRing p { g with level := false, sub := .rest, run := some (next pos) })) ∧
        (∀ pos, c.nextHalf = some pos → c.isOn pos = true → s.arb.waitList = [] → tick = .next
          { u.setRing p { g with
              level := true, drive := 0, trip := 0, bursts := min 65535 (g.bursts + 1), run := some (next pos) } with
            arb := if u.arb.grantA = none then { u.arb with grantA := some p } else { u.arb with grantB := some p } }) ∧
        (∀ pos, c.nextHalf = some pos → c.isOn pos = true → s.arb.waitList ≠ [] → ∃ front back : List LineNo,
          s.arb.waitList.tail = front ++ back ∧
          tick = .next { u.setRing p { g with
              level := false, sub := .waitGrant, waitStamp := s.clock.boundaries, run := some (next pos) } with
            arb := { u.arb with waitList := front ++ p :: back } } ∧
          (∀ r ∈ front, ¬ ((s.ring.get r).waitStamp = s.clock.boundaries ∧ p < r)) ∧
          ∀ r, back.head? = some r → (s.ring.get r).waitStamp = s.clock.boundaries ∧ p < r) ∧
        (c.nextHalf = none → tick = .next
          ((((u.setRing p { g with run := none, sub := .none, level := false }).setIdent p { i with buffer := [], hold := false }).setPort
            p { s.port.get p with state := .idle }).giveMark
              { kind := .ringDone, line := BitVec.ofNat 8 p.val, detail16 := (match i.status with
                  | .none => 0
                  | .pending => 2
                  | .sending => 2
                  | .tail => 1
                  | .sent => 1), time := s.now, detail32 := BitVec.ofNat 32 g.bursts })))) ∧
  (∀ (p : LineNo) (s : State),
    let g := s.ring.get p
    let burst := s.setRing p { g with
      sub := .burst, level := true, drive := 0, trip := 0, bursts := min 65535 (g.bursts + 1)
      run := g.run.map fun c => { c with count := c.duration c.pos } }
    (s.arb.grantA = none → s.askGrant p = { burst with arb := { s.arb with grantA := some p } }) ∧
    (s.arb.grantA ≠ none → s.arb.grantB = none → s.askGrant p = { burst with arb := { s.arb with grantB := some p } })) ∧
  (∀ (p : LineNo) (s : State), s.arb.grantA ≠ none → s.arb.grantB ≠ none → ∃ front back : List LineNo,
    s.arb.waitList = front ++ back ∧
    s.askGrant p = { s.setRing p { s.ring.get p with
        sub := .waitGrant, waitStamp := s.clock.boundaries,
        run := (s.ring.get p).run.map fun c => { c with count := c.duration c.pos } } with
      arb := { s.arb with waitList := front ++ p :: back } } ∧
    (∀ q ∈ front, ¬ ((s.ring.get q).waitStamp = s.clock.boundaries ∧ p < q)) ∧
    ∀ q, back.head? = some q → (s.ring.get q).waitStamp = s.clock.boundaries ∧ p < q) ∧
  ∀ (p : LineNo) (s : State),
    let g := s.ring.get p
    (s.clock.running = true → g.sub = .burst → g.freq + 1 ≤ g.drive →
      exec (.ringDriveToggle p) s = .next (s.setRing p { g with level := !g.level, drive := 0 })) ∧
    (s.clock.running = false ∨ g.sub ≠ .burst ∨ g.drive ≤ g.freq → exec (.ringDriveToggle p) s = .next s)

/-- R150, R149, R153: the three ticks that move caller identity on: from the delay to sending a stream of 480 + 10 bits a byte, from sending
to the tail with an IDENT_SENT mark, and from the tail to SENT with the hold lifted, each while the rest's own count goes on falling, and
the ticks between them, which lower the delay, the send and the tail count. When the rest has run out at the tail's end, that tick begins
the next off-half, asks for a grant for the next on-half (the statement above says where that leads), or completes a ONCE run with RING_DONE
and SENT. IDENT_START, IDENT_SENT and IDENT_TAIL_END are those ticks by name (log 4). -/
def Obligations.IdentityMovesOnAtItsTicks : Prop :=
  ∀ (p : LineNo) (s : State) (c : CadenceRun), s.canTake (.tick p) = true → (s.ring.get p).run = some c →
    let g := s.ring.get p
    let i := s.ident.get p
    let u := s.undue (.tick p)
    let counted := some { c with count := c.count - 1 }
    let bits := 480 + 10 * i.buffer.length
    (g.sub = .rest → i.status = .pending → i.hold = true → i.delay ≤ 1 →
      exec (.identStart p) s = exec (.cadenceTick p) s ∧
      exec (.identStart p) s = .next ((u.setIdent p { i with
        delay := 0, status := .sending, send := (bits + 11) / 12, sent := 0, phase := 0 }).setRing p
          { g with sub := .ident, run := counted })) ∧
    (g.sub = .ident → i.status = .sending → i.hold = true → i.send ≤ 1 →
      exec (.identSent p) s = exec (.cadenceTick p) s ∧
      exec (.identSent p) s = .next (((u.setIdent p { i with send := 0, status := .tail, tail := 20 }).setRing p
        { g with sub := .rest, run := counted }).giveMark
          { kind := .identSent, line := BitVec.ofNat 8 p.val, detail16 := BitVec.ofNat 16 (i.buffer.length - 1), time := s.now,
            detail32 := BitVec.ofNat 32 bits })) ∧
    (g.sub = .rest → i.status = .tail → i.tail ≤ 1 → 1 < c.count →
      exec (.identTailEnd p) s = exec (.cadenceTick p) s ∧
      exec (.identTailEnd p) s = .next ((u.setIdent p { i with tail := 0, status := .sent, hold := false }).setRing p
        { g with run := counted })) ∧
    (g.sub = .rest → i.status = .tail → i.tail ≤ 1 → c.count ≤ 1 →
      let sent := u.setIdent p { i with tail := 0, status := .sent, hold := false }
      exec (.identTailEnd p) s = exec (.cadenceTick p) s ∧
      (∀ pos, c.nextHalf = some pos →
        let next := sent.setRing p { g with sub := .rest, run := some { c with pos := pos, count := c.duration pos } }
        (c.isOn pos = false → exec (.identTailEnd p) s = .next next) ∧
        (c.isOn pos = true → exec (.identTailEnd p) s = .next (next.askGrant p))) ∧
      (c.nextHalf = none → exec (.identTailEnd p) s = .next
        ((((u.setRing p { g with run := none, sub := .none, level := false }).setIdent p
          { i with tail := 0, status := .sent, buffer := [], hold := false }).setPort p { s.port.get p with state := .idle }).giveMark
            { kind := .ringDone, line := BitVec.ofNat 8 p.val, detail16 := 1, time := s.now, detail32 := BitVec.ofNat 32 g.bursts }))) ∧
    (g.sub = .ident → i.status = .sending → i.hold = true → 1 < i.send → exec (.cadenceTick p) s = .next
      ((u.setIdent p { i with send := i.send - 1 }).setRing p { g with run := counted })) ∧
    (g.sub = .rest → i.status = .tail → i.hold = true → 1 < i.tail → exec (.cadenceTick p) s = .next
      ((u.setIdent p { i with tail := i.tail - 1 }).setRing p { g with run := counted })) ∧
    (g.sub = .rest → (i.status = .pending → i.hold = true → 1 < i.delay → exec (.cadenceTick p) s = .next
      ((u.setIdent p { i with delay := i.delay - 1 }).setRing p { g with run := counted })))

/-- R148, R149, R151, R154, R159: the identity stream: 300 seizure bits from a 0, 180 marks, each byte with its start and stop bit, least
significant bit first, and mark beyond; sample period s carries bit 3·s / 20; the phase increments of mark and space; and the checksum that
brings the sum of the buffer to a multiple of 256. A sine sample of amplitude a lies in −a..a, is 0, a, 0 and −a at the quarter turns, turns
with its phase as a sine does, and lies within half a unit, to 2⁻⁴⁰, of a times the sine of the phase, whose nearest integer it is (log 17).
An identity sample is that of amplitude 2048; a tone sample is the saturated sum of its components in an on-half, an absent one giving 0,
and 0 in an off-half. -/
def Obligations.IdentityStreamAndSynthesis : Prop :=
  (∀ (a : Nat) (phase : Half), a ≤ 8191 →
    -(a : Int) ≤ sineSample a phase ∧ sineSample a phase ≤ a ∧ sineSample a 0 = 0 ∧ sineSample a 0x4000 = a ∧
    sineSample a 0x8000 = 0 ∧ sineSample a 0xC000 = -(a : Int) ∧
    sineSample a (phase + 0x8000) = -sineSample a phase ∧ sineSample a (0x8000 - phase) = sineSample a phase ∧
    |(sineSample a phase : ℝ) - (a : ℝ) * Real.sin (2 * Real.pi * (phase.toNat : ℝ) / 65536)| ≤ 1 / 2 + 1 / 2 ^ 40) ∧
  (∀ i : Ident, i.sample.toInt = sineSample 2048 i.phase) ∧
  (∀ t : Tone,
    let component := fun (f a : Nat) (phase : Half) => if f = 0 ∨ a = 0 then 0 else sineSample a phase
    (t.half = false → t.sample = 0) ∧
    (t.half = true → t.sample.toInt = max (-8192) (min 8191 (component t.f1 t.a1 t.ph1 + component t.f2 t.a2 t.ph2)))) ∧
  ∀ buffer : List Byte,
    streamBits buffer.length = 480 + 10 * buffer.length ∧
    (∀ k, k < 300 → (streamBit buffer k = true ↔ k % 2 = 1)) ∧
    (∀ k, 300 ≤ k → k < 480 → streamBit buffer k = true) ∧
    (∀ (j : Nat) (b : Byte), buffer[j]? = some b →
      streamBit buffer (480 + 10 * j) = false ∧ streamBit buffer (480 + 10 * j + 9) = true ∧
      ∀ i, i < 8 → streamBit buffer (480 + 10 * j + 1 + i) = b.getLsbD i) ∧
    (∀ k, 480 + 10 * buffer.length ≤ k → streamBit buffer k = true) ∧
    (∀ period k, (20 * k + 2) / 3 ≤ period → period < (20 * (k + 1) + 2) / 3 → streamBitAt buffer period = streamBit buffer k) ∧
    (∃ d, sendTicks buffer.length = d ∧ 480 + 10 * buffer.length ≤ 12 * d ∧ 12 * d < 480 + 10 * buffer.length + 12) ∧
    identIncrement true = 9830 ∧ identIncrement false = 18022 ∧
    ((buffer ++ [identChecksum buffer]).map BitVec.toNat).sum % 256 = 0

/-! ### Cadences and tones -/

/-- R130, R131, R132, R191: a cadence starts at its first half whose duration is not 0, or not at all when the record is empty; the next
half is the first later one that is not 0, in REPEAT else the first from the beginning, and a ONCE run ends when there is none. Record k
stands at 0100h + 32·k, its flags ONCE and OFF_FIRST in bits 0 and 1 of byte 0, and the on- and off-duration of pair i at offsets 16 + 4·i
and 18 + 4·i. -/
def Obligations.CadenceEngineFindsTheNextHalf : Prop :=
  (∀ r : CadenceRecord, r.durations.length = 8 →
    (r.start = none ↔ ∀ d ∈ r.durations, d = 0) ∧
    ∀ c : CadenceRun, r.start = some c → c.once = r.once ∧ c.offFirst = r.offFirst ∧ c.durations = r.durations ∧ c.pos < 8 ∧
      c.duration c.pos ≠ 0 ∧ c.count = c.duration c.pos ∧ ∀ pos, pos < c.pos → c.duration pos = 0) ∧
  (∀ c : CadenceRun, c.pos < 8 →
    (∀ pos, c.nextHalf = some pos → pos < 8 ∧ c.duration pos ≠ 0 ∧
      (c.pos < pos ∧ (∀ k, c.pos < k → k < pos → c.duration k = 0) ∨
        c.once = false ∧ (∀ k, c.pos < k → k < 8 → c.duration k = 0) ∧ ∀ k, k < pos → c.duration k = 0)) ∧
    (c.nextHalf = none → (∀ k, c.pos < k → k < 8 → c.duration k = 0) ∧ (c.once = true ∨ ∀ k, k < 8 → c.duration k = 0))) ∧
  (∀ (s : State) (k : Nat),
    let byte := fun i => s.byteAt (0x100 + 32 * k + i)
    let r := s.cadenceRecord k
    r.once = (byte 0).getLsbD 0 ∧ r.offFirst = (byte 0).getLsbD 1 ∧ r.durations.length = 8 ∧
    ∀ i, i < 4 → r.durations[2 * i]? = some (byte (17 + 4 * i) ++ byte (16 + 4 * i)).toNat ∧
      r.durations[2 * i + 1]? = some (byte (19 + 4 * i) ++ byte (18 + 4 * i)).toNat) ∧
  ∀ (c : CadenceRun) (pos : Nat), c.isOn pos = (if c.offFirst then pos % 2 == 1 else pos % 2 == 0) ∧
    c.duration pos = c.durations.getD (2 * (pos / 2) + if c.isOn pos then 0 else 1) 0

/-- R132, R140, R160, R161, R138, R146, R153: a cadence tick lowers the count of the current half; the tick that ends it moves a tone to the
next half, phases 0 in an on-half, or ends it with TONE_DONE, and moves a ringing port's rest to the next off-half, to a burst on a free
grant or the wait list with both held (the statement of the grants says where asking leads), or, at the end of a ONCE run, to IDLE with
RING_DONE. A rest before any burst, with identity PENDING and no hold, counts and ends likewise, and such a run completes UNSENT. A port
that waits for a grant, or that has no run, is left alone. CADENCE_ADVANCE is the tick that ends a half by name (log 4). An identity status
of SENT, or PENDING at the end of a run, stays as it is, by the model's reading (log 12). -/
def Obligations.CadenceTickCountsAndAdvances : Prop :=
  ∀ (p : LineNo) (s : State), s.canTake (.tick p) = true →
    let g := s.ring.get p
    let t := s.tone.get p
    let i := s.ident.get p
    let u := s.undue (.tick p)
    let tick := exec (.cadenceTick p) s
    let advance := exec (.cadenceAdvance p) s
    (g.run = none → t.run = none → tick = .next u) ∧
    (∀ c, g.run = some c → g.sub = .waitGrant → tick = .next u) ∧
    (∀ c, g.run = some c → g.sub = .burst ∨ g.sub = .rest ∧ (i.status = .pending → i.hold = false) ∧ i.status ≠ .sending ∧ i.status ≠ .tail →
      1 < c.count → tick = .next (u.setRing p { g with run := some { c with count := c.count - 1 } }) ∧ advance = .next s) ∧
    (∀ c, g.run = none → t.run = some c → 1 < c.count →
      tick = .next (u.setTone p { t with run := some { c with count := c.count - 1 } }) ∧ advance = .next s) ∧
    (∀ c pos, g.run = none → t.run = some c → c.count ≤ 1 → c.nextHalf = some pos →
      let next := some { c with pos := pos, count := c.duration pos }
      advance = tick ∧
      (c.isOn pos = true → advance = .next (u.setTone p { t with run := next, half := true, ph1 := 0, ph2 := 0 })) ∧
      (c.isOn pos = false → advance = .next (u.setTone p { t with run := next, half := false }))) ∧
    (∀ c, g.run = none → t.run = some c → c.count ≤ 1 → c.nextHalf = none →
      advance = tick ∧ advance = .next ((u.setTone p { t with run := none, running := false, half := false }).giveMark
        { kind := .toneDone, line := BitVec.ofNat 8 p.val, detail16 := BitVec.ofNat 16 t.index, time := s.now,
          detail32 := BitVec.ofNat 32 t.cadence })) ∧
    ∀ c, g.run = some c → g.sub = .rest → i.status = .none ∨ i.status = .sent ∨ i.status = .pending → i.hold = false → c.count ≤ 1 →
      advance = tick ∧
      (∀ pos, c.nextHalf = some pos →
        let next : CadenceRun := { c with pos := pos, count := c.duration pos }
        (c.isOn pos = false → advance = .next (u.setRing p { g with run := some next })) ∧
        (c.isOn pos = true → advance = .next ((u.setRing p { g with run := some next }).askGrant p)) ∧
        (c.isOn pos = true → s.arb.grantA = none → advance = .next
          { u.setRing p { g with
              run := some next, sub := .burst, level := true, drive := 0, trip := 0, bursts := min 65535 (g.bursts + 1) } with
            arb := { s.arb with grantA := some p } })) ∧
      (c.nextHalf = none → advance = .next
        ((((u.setRing p { g with run := none, sub := .none, level := false }).setIdent p { i with buffer := [] }).setPort p
          { s.port.get p with state := .idle }).giveMark
            { kind := .ringDone, line := BitVec.ofNat 8 p.val, time := s.now, detail32 := BitVec.ofNat 32 g.bursts
              detail16 := (match i.status with
                | .none => 0
                | .pending => 2
                | .sending => 2
                | .tail => 1
                | .sent => 1) }))

/-! ### Verdicts -/

/-- R163, R168, R170, R171: the line verdict event of a port that is not OFFHOOK clears its debounce and both line runs; on an OFFHOOK port
the verdict of the latched frame goes to the debounce with SC at the frame's boundary as its time, and then each line run counts the
verdicts of its own kind, is cleared by any other, and fires once at the trigger length: it passes TONE_LINE and gives its mark, with
direction LINE, the length and the same time. Nothing else of the part changes. -/
def Obligations.LineVerdictDrivesTheLineRuns : Prop :=
  ∀ (p : LineNo) (s : State), s.canTake (.verdict p) = true →
    let v := s.verdict.get p
    let u := s.undue (.verdict p)
    let fv := lineVerdictOf (s.port.get p).lineFrame
    let length := if (s.chan.get p).state = .closed then 20 else (s.chan.get p).params.steadyTrigger
    let zero : ToneRun := { count := 0, fired := false }
    let after := fun (r : ToneRun) (own : FrameVerdict) =>
      let n := min 255 (r.count + 1)
      if fv = own then ({ count := n, fired := r.fired || decide (length ≤ n) } : ToneRun) else zero
    let fires := fun (r : ToneRun) => r.fired = false ∧ length ≤ min 255 (r.count + 1)
    let line := exec (.lineVerdict p) s
    ((s.port.get p).state ≠ .offhook → line = .next (u.setVerdict p { v with
      candidate := none, candRun := 0, digitOn := none, offRun := 0, onCount := 0, lineAnswer := zero, lineCalling := zero })) ∧
    ((s.port.get p).state = .offhook →
      (let d := u.debounce p s.clock.boundarySc fv
       let counted := d.setVerdict p { d.verdict.get p with
         lineAnswer := after v.lineAnswer .answerTone, lineCalling := after v.lineCalling .callingTone }
       let fired := fun (kind : MarkKind) => (counted.setVerdict p { counted.verdict.get p with
         triggers := v.triggers ++ [.toneLine] }).giveMark
           { kind := kind, line := BitVec.ofNat 8 p.val, detail16 := 0, time := s.clock.boundarySc, detail32 := BitVec.ofNat 32 length }
       (fv = .answerTone → fires v.lineAnswer → line = .next (fired .answerTone)) ∧
       (fv = .callingTone → fires v.lineCalling → line = .next (fired .callingTone)) ∧
       (¬ (fv = .answerTone ∧ fires v.lineAnswer) → ¬ (fv = .callingTone ∧ fires v.lineCalling) → line = .next counted)) ∧
      ∃ t, line = .next t ∧
        (t.verdict.get p).lineAnswer = after v.lineAnswer .answerTone ∧
        (t.verdict.get p).lineCalling = after v.lineCalling .callingTone ∧
        (t.verdict.get p).farAnswer = v.farAnswer ∧ (t.verdict.get p).farCalling = v.farCalling ∧
        (t.verdict.get p).farFrames = v.farFrames ∧ (t.verdict.get p).lastFar = v.lastFar ∧
        (t.verdict.get p).reopened = v.reopened ∧
        (∀ m, m ≠ p → t.verdict.get m = s.verdict.get m) ∧ t.chan = s.chan ∧ t.cap = s.cap ∧ t.port = s.port ∧ t.ring = s.ring ∧
        t.ident = s.ident ∧ t.arb = s.arb ∧ t.tone = s.tone ∧ t.clock = s.clock ∧ t.bus = s.bus ∧ t.pending = s.pending)

/-- R167, R170: the debounce of a line verdict, in every case: a DIGIT verdict makes or keeps its candidate, any other none; the fourth
frame of a digit turns it on when none is on, the fourth frame without it turns it off with its on-duration, and a digit that replaces
another does both at once in that order. Each mark carries the time the verdict is taken with, which a line verdict event gives as SC at the
frame's boundary (the statement above). -/
def Obligations.DebounceTurnsDigitsOnAndOff : Prop :=
  ∀ (s : State) (p : LineNo) (time : Word),
    let v := s.verdict.get p
    let mark := fun (u : State) (kind : MarkKind) (d16 d32 : Nat) => u.giveMark
      { kind := kind, line := BitVec.ofNat 8 p.val, detail16 := BitVec.ofNat 16 d16, time := time, detail32 := BitVec.ofNat 32 d32 }
    let other := fun fv : FrameVerdict => fv = .noVerdict ∨ fv = .answerTone ∨ fv = .callingTone
    let onCount := min 65535 (v.onCount + 1)
    let candidate := fun e : Nat => if v.candidate = some e then min 4 (v.candRun + 1) else 1
    (∀ d, v.digitOn = none → candidate d = 4 → s.debounce p time (.digit d) =
      mark (s.setVerdict p { v with candidate := some d, candRun := 4, digitOn := some d, onCount := 4, offRun := 0 }) .digitOn d 0) ∧
    (∀ d, v.digitOn = none → candidate d ≠ 4 →
      s.debounce p time (.digit d) = s.setVerdict p { v with candidate := some d, candRun := candidate d }) ∧
    (∀ fv, other fv → v.digitOn = none → s.debounce p time fv = s.setVerdict p { v with candidate := none, candRun := 0 }) ∧
    (∀ d, v.digitOn = some d → s.debounce p time (.digit d) =
      s.setVerdict p { v with candidate := some d, candRun := candidate d, onCount := onCount, offRun := 0 }) ∧
    (∀ d fv, other fv → v.digitOn = some d → v.offRun < 3 → s.debounce p time fv =
      s.setVerdict p { v with candidate := none, candRun := 0, onCount := onCount, offRun := v.offRun + 1 }) ∧
    (∀ d fv, other fv → v.digitOn = some d → 3 ≤ v.offRun → s.debounce p time fv =
      mark (s.setVerdict p { v with candidate := none, candRun := 0, digitOn := none, onCount := 0, offRun := 0 }) .digitOff d
        (onCount - 4)) ∧
    ∀ d e, d ≠ e → v.digitOn = some d →
      (v.offRun < 3 → s.debounce p time (.digit e) =
        s.setVerdict p { v with candidate := some e, candRun := candidate e, onCount := onCount, offRun := v.offRun + 1 }) ∧
      (3 ≤ v.offRun → candidate e ≠ 4 → s.debounce p time (.digit e) =
        mark (s.setVerdict p { v with candidate := some e, candRun := candidate e, digitOn := none, onCount := 0, offRun := 0 })
          .digitOff d (onCount - 4)) ∧
      (3 ≤ v.offRun → candidate e = 4 → s.debounce p time (.digit e) =
        mark (mark (s.setVerdict p { v with candidate := some e, candRun := 4, digitOn := some e, onCount := 4, offRun := 0 })
          .digitOff d (onCount - 4)) .digitOn e 0)

/-- R162, R164, R165, R69: the analysis of a frame lists at most 8 components, each with F in 0..39,999 and A in 16..8191, strongest first
and equal ones lower frequency first, none for silence; E2 is the sum of the squares; and a frame that is a sum of steady sine waves 100 Hz
or more apart yields exactly the waves of such a sum, of the fewest waves that give its samples and of the first kind that does: those of
amplitude 16 and more, the 8 strongest if there are more. What counts as such a sum (the samples of a tone of the synthesis, or the nearest
integers to a sum of at most 26 waves, a constant being as strong as its samples, as they are or decoded from a block of any coding), and
which sum is taken where several give the same samples, is the model's reading (log 6). Test 1 passes for a digit exactly as the manual's
conditions, bands and table say, tests 2 and 3 likewise, the first that passes gives the line verdict, and tests 2 and 3 alone the far
verdict; no frequency lies in two bands. -/
def Obligations.FrameAnalysisGivesTheVerdict : Prop :=
  let low := [697, 770, 852, 941]
  let high := [1209, 1336, 1477, 1633]
  let within := fun (k f freq : Nat) => 20 * ((freq : Int) - 10 * (f : Int)).natAbs ≤ k * f
  let tone := fun (centre band : Nat) (cs : List Component) (e2 : Nat) => ∃ c rest, cs = c :: rest ∧
    ((c.freq : Int) - (centre : Int)).natAbs ≤ band ∧ 128 ≤ c.amp ∧ e2 ≤ 50 * c.amp ^ 2
  (∀ f : Frame,
    frameEnergy f = (f.map fun x => x.toInt.natAbs ^ 2).sum ∧ (analyse f).length ≤ 8 ∧
    (∀ c ∈ analyse f, c.freq ≤ 39999 ∧ 16 ≤ c.amp ∧ c.amp ≤ 8191) ∧
    (analyse f).Pairwise (fun a b => b.amp < a.amp ∨ a.amp = b.amp ∧ a.freq ≤ b.freq) ∧
    ((∀ x ∈ f, x = 0) → analyse f = [] ∧ frameEnergy f = 0) ∧
    ∀ ws : List Wave, (∃ x ∈ f, x ≠ 0) → steadySum ws f = true → ∃ (vs : List Wave) (rest : List Component), steadySum vs f = true ∧
      (∀ us, steadySum us f = true → vs.length ≤ us.length ∧ sumRank vs f ≤ sumRank us f) ∧
      (analyse f ++ rest).Perm ((vs.map waveComponent).filter fun c => decide (16 ≤ c.amp)) ∧
      (rest ≠ [] → (analyse f).length = 8) ∧
      ∀ c ∈ analyse f, ∀ d ∈ rest, d.amp < c.amp ∨ d.amp = c.amp ∧ c.freq ≤ d.freq) ∧
  (∀ (ws : List Wave) (f : Frame), steadySum ws f = true ↔ ∃ coding : Option Coding,
    toneWaves ws = true ∧ f = frameOf { tone := true, coding := coding } ws ∨
    steadyWaves ws = true ∧ f = frameOf { tone := false, coding := coding } ws) ∧
  (∀ (tone : Bool) (ws : List Wave), let delivered := frameOf { tone := tone, coding := none } ws
    frameOf { tone := tone, coding := some .mu } ws = delivered.map (fun x => decodeMu (encodeMu x)) ∧
    frameOf { tone := tone, coding := some .a } ws = delivered.map (fun x => decodeA (encodeA x))) ∧
  (∀ (cs : List Component) (d : Nat), digitTest cs = some d ↔
    ∃ strong weak rest, cs = strong :: weak :: rest ∧ 256 ≤ strong.amp ∧ 256 ≤ weak.amp ∧ 2 * strong.amp ≤ 5 * weak.amp ∧
      (∀ c ∈ rest, 2 * c.amp ≤ weak.amp) ∧
      ∃ l h i j, (l = strong.freq ∧ h = weak.freq ∨ l = weak.freq ∧ h = strong.freq) ∧ i < 4 ∧ j < 4 ∧
        within 7 (low.getD i 0) l ∧ within 7 (high.getD j 0) h ∧ (within 3 (low.getD i 0) l ∨ within 3 (high.getD j 0) h) ∧
        d = ([[1, 2, 3, 12], [4, 5, 6, 13], [7, 8, 9, 14], [10, 0, 11, 15]].getD i []).getD j 0) ∧
  (∀ (cs : List Component) (e2 : Nat),
    (toneVerdict cs e2 = .answerTone ↔ tone 21000 150 cs e2) ∧ (toneVerdict cs e2 = .callingTone ↔ tone 11000 380 cs e2) ∧
    (∀ d, toneVerdict cs e2 ≠ .digit d) ∧ (∀ d, classifyAnalysis cs e2 = .digit d ↔ digitTest cs = some d) ∧
    (digitTest cs = none → classifyAnalysis cs e2 = toneVerdict cs e2)) ∧
  (∀ f : Frame, lineVerdictOf f = classifyAnalysis (analyse f) (frameEnergy f) ∧ farVerdictOf f = toneVerdict (analyse f) (frameEnergy f)) ∧
  ∀ freq f g : Nat, f ∈ low ++ high → g ∈ low ++ high → within 7 f freq →
    (within 7 g freq → f = g) ∧ 150 < ((freq : Int) - 21000).natAbs ∧ 380 < ((freq : Int) - 11000).natAbs

/-- R165, R168, R170, R75: the oldest far frame of a port is taken: both far runs start afresh unless it follows the last one by one
boundary with no reopening between (that a reopening within one boundary breaks them too is the model's reading of R165, log 26); each then
counts its own verdict, is cleared by any other, and fires once at the trigger length, passing TONE_FAR and giving its mark with direction
FAR, the length and SC at the frame's boundary; and the frame's boundary count is stored. Nothing else of the part changes. -/
def Obligations.FarFrameDrivesTheFarRuns : Prop :=
  ∀ (p : LineNo) (s : State) (f : FarFrame) (fs : List FarFrame), s.clock.running = true → (s.verdict.get p).farFrames = f :: fs →
    let v := s.verdict.get p
    let fv := farVerdictOf f.samples
    let length := if (s.chan.get p).state = .closed then 20 else (s.chan.get p).params.steadyTrigger
    let zero : ToneRun := { count := 0, fired := false }
    let base := fun r : ToneRun => if f.afresh = false ∧ v.lastFar = some (f.boundary - 1) then r else zero
    let after := fun (r : ToneRun) (own : FrameVerdict) =>
      let n := min 255 (r.count + 1)
      if fv = own then ({ count := n, fired := r.fired || decide (length ≤ n) } : ToneRun) else zero
    let fires := fun (r : ToneRun) => (base r).fired = false ∧ length ≤ min 255 ((base r).count + 1)
    let counted := { v with
      farFrames := fs, lastFar := some f.boundary, farAnswer := after (base v.farAnswer) .answerTone,
      farCalling := after (base v.farCalling) .callingTone }
    let fired := fun (kind : MarkKind) => (s.setVerdict p { counted with triggers := v.triggers ++ [.toneFar] }).giveMark
      { kind := kind, line := BitVec.ofNat 8 p.val, detail16 := 1, time := f.sc, detail32 := BitVec.ofNat 32 length }
    let far := exec (.farFrame p) s
    (fv = .answerTone → fires v.farAnswer → far = .next (fired .answerTone)) ∧
    (fv = .callingTone → fires v.farCalling → far = .next (fired .callingTone)) ∧
    (¬ (fv = .answerTone ∧ fires v.farAnswer) → ¬ (fv = .callingTone ∧ fires v.farCalling) → far = .next (s.setVerdict p counted))

/-! ### Marks -/

/-- R176 to R180, R190: a mark joins the open sheet as its record M, and the 28th closes it; with no sheet it opens one with the oldest
spare cell, behind the MARKS_LOST mark and the queued marks, and writes nothing else; with no spare cell either it joins the queue of 16,
and after that only raises the lost count. The writer's frame boundary closes an open sheet with its count and hands it over as OUT_MARKS,
and then, if marks are queued, opens a new sheet with the oldest spare cell and writes the MARKS_LOST mark and the queued marks into it;
with nothing open and nothing queued, or no cell, it changes nothing. Each kind has the code of R190, and the time of a mark given now is
SC. -/
def Obligations.MarkWriterPlacesEveryMark : Prop :=
  let bytes := fun m : Mark => [m.kind.code, m.line, m.detail16.extractLsb' 0 8, m.detail16.extractLsb' 8 8, m.time.extractLsb' 0 8,
    m.time.extractLsb' 8 8, m.time.extractLsb' 16 8, m.time.extractLsb' 24 8, m.detail32.extractLsb' 0 8, m.detail32.extractLsb' 8 8,
    m.detail32.extractLsb' 16 8, m.detail32.extractLsb' 24 8, 0, 0, 0, 0]
  let lost := fun s : State => if 0 < s.marks.lost then
    [({ kind := .marksLost, line := 0xFF, detail16 := BitVec.ofNat 16 s.marks.lost, time := s.now, detail32 := 0 } : Mark)] else []
  let opened := fun (s t : State) (c : CellNo) (rest : List CellNo) (all : List Mark) =>
    t = { s with
      mem := t.mem
      marks := { sheet := some c, count := all.length, queue := [], lost := 0 }
      ex := { s.ex with
        spare := rest, keeping := tablePut s.ex.keeping c.val { role := .markSheet, clash := ((s.keptAt c.val).map Kept.clash).getD false } } } ∧
    t.mem.wf = true ∧ (∀ j k i, all[j]? = some k → i < 16 → t.cellByte c (32 + 16 * j + i) = (bytes k).getD i 0) ∧
    ∀ a, (∀ i, i < 16 * all.length → a ≠ cellAddr c (32 + i)) → t.byteAt a = s.byteAt a
  (∀ (s : State) (m : Mark),
     let w := s.marks
     let record := bytes m
     (∀ c, w.sheet = some c → w.count < 27 →
       s.giveMark m = { s.putCell c (32 + 16 * w.count) record with marks := { w with count := w.count + 1 } }) ∧
     (∀ c, w.sheet = some c → w.count = 27 →
       s.giveMark m = { ((s.putCell c 464 record).putCell c 0 (28 :: List.replicate 31 0)).handOver c 0x32 with
         marks := { w with sheet := none, count := 0 } }) ∧
     (w.sheet = none → s.ex.spare = [] → w.queue.length < 16 → s.giveMark m = { s with marks := { w with queue := w.queue ++ [m] } }) ∧
     (w.sheet = none → s.ex.spare = [] → 16 ≤ w.queue.length →
       s.giveMark m = { s with marks := { w with lost := min 65535 (w.lost + 1) } }) ∧
     ∀ c rest, w.sheet = none → s.ex.spare = c :: rest → w.queue.length ≤ 16 → s.mem.wf = true →
       opened s (s.giveMark m) c rest (lost s ++ w.queue ++ [m])) ∧
  ([.seized, .cleared, .flash, .digitPulse, .dialFault, .answered, .ringDone, .identSent, .identAborted, .toneDone, .digitOn, .digitOff,
      .answerTone, .callingTone, .modeSteady, .modeSpeech, .resync, .starved, .stampClash, .marksLost].map MarkKind.code =
    [0x01, 0x02, 0x03, 0x04, 0x05, 0x10, 0x11, 0x12, 0x13, 0x20, 0x21, 0x22, 0x23, 0x24, 0x30, 0x31, 0x32, 0x33, 0x40, 0x41]) ∧
  (∀ s : State, s.now = s.clock.sc) ∧
  ∀ s : State, s.canTake .markWriter = true →
    let w := s.marks
    let u := s.undue .markWriter
    (w.sheet = none → w.queue = [] ∨ s.ex.spare = [] → exec .markWriterBoundary s = .next u) ∧
    (∀ c, w.sheet = some c → w.queue = [] → exec .markWriterBoundary s = .next
      { (u.putCell c 0 (BitVec.ofNat 8 w.count :: List.replicate 31 0)).handOver c 0x32 with
        marks := { w with sheet := none, count := 0 } }) ∧
    ∀ c rest, w.sheet = none → w.queue ≠ [] → w.queue.length ≤ 16 → s.ex.spare = c :: rest →
      s.mem.wf = true → ∃ t, exec .markWriterBoundary s = .next t ∧ opened u t c rest (lost s ++ w.queue)

/-! ### The sample period -/

/-- R44, R45, R46, R115, R117, R127, R128, R151, R159, R163, R179, R180: a sample period of a RUNNING part: SC gains 1, each port sends
identity, tone, played audio or silence, the first that is present, tones and identities step on, and every multiple of 8 and every 80th
sample brings its events due. In HALTED nothing changes (log 22). A drive count standing at N + 1 until its toggle, the latched line frame,
and the silence of a port whose frame boundary is still to be taken are the model's form (log 16, log 19). A sample period that passes
inside a sweep is one in which nothing falls due, and none passes before every other event of the instant has been taken; a step of a sweep
lets the next of them pass first (log 5). -/
def Obligations.SamplePeriodAdvancesTheClock : Prop :=
  (∀ (line : Four Sample) (s : State),
    let k := s.clock
    let point := 79 ≤ k.phase
    let scan := (k.sc + 1).toNat % 8 = 0
    (k.running = false → exec (.samplePeriod line) s = .next s) ∧
    (k.running = true → ∃ t, exec (.samplePeriod line) s = .next t ∧
      t.clock = { k with
        sc := k.sc + 1, phase := if point then 0 else k.phase + 1,
        boundaries := if point then k.boundaries + 1 else k.boundaries, boundarySc := if point then k.sc + 1 else k.boundarySc } ∧
      (scan → t.due.sweep = true ∧ ∀ p, t.due.scan.get p = true ∧ t.due.timer.get p = true) ∧
      (¬ scan → t.due.sweep = s.due.sweep ∧ t.due.scan = s.due.scan ∧ t.due.timer = s.due.timer ∧ t.ring = s.ring) ∧
      (point → t.due.markWriter = true ∧ ∀ p, t.due.frame.get p = true ∧ t.due.capture.get p = true ∧ t.due.verdict.get p = true ∧
        (t.due.tick.get p = true ↔ (s.ring.get p).run ≠ none ∨ (s.tone.get p).run ≠ none)) ∧
      (¬ point → t.due.markWriter = s.due.markWriter ∧ t.due.frame = s.due.frame ∧ t.due.capture = s.due.capture ∧
        t.due.verdict = s.due.verdict ∧ t.due.tick = s.due.tick) ∧
      (∀ p,
        let r := s.port.get p
        let i := s.ident.get p
        let n := s.tone.get p
        let out := if i.status = .sending then sat (sineSample 2048 i.phase)
          else if n.running = true then n.sample
          else if r.state = .offhook ∧ (s.chan.get p).state ≠ .closed ∧ s.due.frame.get p = false then r.played.getD k.phase 0
          else 0
        t.port.get p = (if point
          then { r with output := out, lineBuf := [], lineFrame := ((line.get p :: r.lineBuf).take 80).reverse }
          else { r with output := out, lineBuf := line.get p :: r.lineBuf }) ∧
        t.ident.get p = (if i.status = .sending
          then { i with phase := i.phase + (if streamBit i.buffer (3 * i.sent / 20) then 9830 else 18022), sent := i.sent + 1 } else i) ∧
        t.tone.get p = (if n.running = true ∧ n.half = true
          then { n with ph1 := n.ph1 + BitVec.ofNat 16 n.inc1, ph2 := n.ph2 + BitVec.ofNat 16 n.inc2 } else n) ∧
        (scan → t.ring.get p = (if (s.ring.get p).sub = .burst
          then { s.ring.get p with drive := min ((s.ring.get p).freq + 1) ((s.ring.get p).drive + 1) } else s.ring.get p))) ∧
      t.mem = s.mem ∧ t.ex = s.ex ∧ t.bus = s.bus ∧ t.chan = s.chan ∧ t.cap = s.cap ∧ t.arb = s.arb ∧ t.verdict = s.verdict ∧
      t.marks = s.marks ∧ t.pending = s.pending) ∧
    (s.quiet = true ↔ s.due = Due.reset ∧ ∀ p, (s.verdict.get p).farFrames = [] ∧ (s.verdict.get p).triggers = [] ∧
      ¬ ((s.ring.get p).sub = .burst ∧ (s.ring.get p).freq + 1 ≤ (s.ring.get p).drive)) ∧
    (point ∨ scan ∨ s.quiet = false → s.passSample line = s) ∧
    (¬ point → ¬ scan → s.quiet = true → k.running = true → exec (.samplePeriod line) s = .next (s.passSample line))) ∧
  ∀ s : State,
    (s.clock.work = [] → s.sweepWork = s) ∧
    (∀ w ws, s.clock.work = w :: ws → s.sweepWork = w.foldl State.passSample { s with clock := { s.clock with work := ws } }) ∧
    s.now = s.clock.sc

/-! ### Promises that every step keeps -/

/-- R20, R22, R108, R134, R155, R175: the state after reset meets every promise below. -/
def Obligations.ResetMeetsEveryPromise : Prop :=
  State.reset.memoryOk ∧ State.reset.stockOk ∧ State.reset.linesOk ∧ State.reset.windowsOk ∧ State.reset.keepingOk ∧ State.reset.captureOk

/-- R1: whatever the command, a step keeps exchange memory in its canonical form: addresses 0000h to FFFFh alone, each listed once, and none
that reads as an unlisted one does, which is the model's own form (log 1). -/
def Obligations.StepKeepsMemoryCanonical : Prop :=
  ∀ s t : State, s.memoryOk → step s = .next t → t.memoryOk

/-- R1, R5, R13, R191: the part writes neither the host scratch area nor the cadence and tone tables: a step leaves every byte of 007Eh to
03FFh as it was, but for a host write to it and a power-on reset. And a step other than those and a sweep leaves the stamp and every byte of
a cell outside the keeping as they were, in a state in which the stock, the capture sides and the keeping are in order. -/
def Obligations.StepLeavesScratchAndTablesAlone : Prop :=
  ∀ (s t : State) (c : Instr) (rest : List Instr), s.memoryOk → s.pending = c :: rest →
    (∀ half lanes data, c ≠ .hostMemoryWrite half lanes data) → (∀ ram, c ≠ .powerOnReset ram) → step s = .next t →
    (∀ a, 0x7E ≤ a → a < 0x400 → t.byteAt a = s.byteAt a) ∧
    (s.stockOk → s.captureOk → s.keepingOk → (∀ work between, c ≠ .sweep work between) →
      ∀ n : CellNo, s.isKept n.val = false → t.stamp n = s.stamp n ∧ ∀ off, off < 512 → t.cellByte n off = s.cellByte n off)

/-- R17, R19, R175, R177, R178, R25, R84, R86, R89: a step keeps the stock at 32 cells or fewer, the reserve at 4 or less, the open sheet
below 28 marks, the queue at 16 marks or fewer and empty while a sheet is open, and the lost count at 65,535 or less. It keeps every capture
side within its block's bounds: a packing of at least 1 that leaves room in a parcel for the redundancy, fewer frames than that in a period,
and no frame of a history or a line of more than 80 samples. -/
def Obligations.StepKeepsStockMarkAndCaptureBounds : Prop :=
  ∀ s t : State, step s = .next t → (s.stockOk → t.stockOk) ∧ (s.captureOk → t.captureOk)

/-- R117, R127, R133, R138, R139: a step keeps the ports and the ring supply in order: counts run in OFFHOOK alone, a tone lives in OFFHOOK
alone, a ring run and a sub-phase in RINGING alone, BURST is to hold one grant and WAIT_GRANT to wait once on the list, and no port waits
while a grant is free. Hence at most two ports are in BURST. -/
def Obligations.StepKeepsPortsAndRingSupply : Prop :=
  (∀ s t : State, s.linesOk → step s = .next t → t.linesOk) ∧
  ∀ s : State, s.linesOk → ∀ a b c : LineNo, a ≠ b → a ≠ c → b ≠ c →
    (s.ring.get a).sub = .burst → (s.ring.get b).sub = .burst → (s.ring.get c).sub ≠ .burst

/-- R40, R21, R67, R70: a step keeps every playout list on the grid of its cursor, in slots 0 to 31, in ascending order and so at most 32
entries, empty outside FLOWING; steady frames and a hold in STEADY alone, an excess run and a pending trim in SPEECH alone. -/
def Obligations.StepKeepsPlayoutWindows : Prop :=
  (∀ s t : State, s.windowsOk → step s = .next t → t.windowsOk) ∧
  ∀ s : State, s.windowsOk → ∀ ch : LineNo, (s.chan.get ch).list.length ≤ 32

/-- R13, R17, R39, R78: a step keeps the keeping in order: a parcel cell's count is the number of entries that name it, entries name kept
parcel cells of their own channel, the spares are the stock, each assembly cell and the open mark sheet are held by their block, and no sheet
outlives its dispatch. -/
def Obligations.StepKeepsTheKeepingInOrder : Prop :=
  ∀ s t : State, s.keepingOk → step s = .next t → t.keepingOk

end
end

