-- ==== Sys2Proof/Laws/Memory.lean ====
section
/-!
SUPPORT. Laws/Memory.lean: the laws of the sorted tables and of exchange memory: read after write, and that every operation keeps the
canonical form.
-/
namespace Sys2Proof.Machine

/-! ### Sorted tables -/

/-- A table is rising when its keys rise pairwise. -/
theorem tableRising_iff {α : Type} (t : List (Nat × α)) :
    tableRising t = true ↔ t.Pairwise (fun a b => a.1 < b.1) := by
  induction t with
  | nil => simp [tableRising]
  | cons x t ih =>
    cases t with
    | nil => simp [tableRising]
    | cons y t =>
      obtain ⟨a, u⟩ := x
      obtain ⟨b, v⟩ := y
      rw [tableRising, Bool.and_eq_true, decide_eq_true_eq, ih]
      constructor
      · rintro ⟨hab, h⟩
        refine List.pairwise_cons.mpr ⟨fun z hz => ?_, h⟩
        rcases List.mem_cons.mp hz with rfl | hz
        · exact hab
        · exact hab.trans (List.rel_of_pairwise_cons h hz)
      · intro h
        obtain ⟨hall, h⟩ := List.pairwise_cons.mp h
        exact ⟨hall (b, v) List.mem_cons_self, h⟩

theorem tableGet_put_same {α : Type} (t : List (Nat × α)) (a : Nat) (v : α) : tableGet (tablePut t a v) a = some v := by
  induction t with
  | nil => simp [tablePut, tableGet]
  | cons x t ih =>
    obtain ⟨k, w⟩ := x
    by_cases h1 : a = k
    · simp [tablePut, tableGet, h1]
    · by_cases h2 : a < k
      · simp [tablePut, tableGet, h1, h2]
      · simp [tablePut, tableGet, h1, h2, ih]

theorem tableGet_put_other {α : Type} (t : List (Nat × α)) {a m : Nat} (v : α) (h : m ≠ a) :
    tableGet (tablePut t a v) m = tableGet t m := by
  induction t with
  | nil => simp [tablePut, tableGet, h]
  | cons x t ih =>
    obtain ⟨k, w⟩ := x
    by_cases h1 : a = k
    · subst h1; simp [tablePut, tableGet, h]
    · by_cases h2 : a < k
      · simp only [tablePut, h1, h2, if_true, if_false]
        by_cases h3 : m < a
        · have h4 : m ≠ k := by omega
          have h5 : m < k := by omega
          simp [tableGet, h, h3, h4, h5]
        · rw [tableGet]; simp [h, h3]
      · simp [tablePut, tableGet, h1, h2, ih]

theorem tableGet_put {α : Type} (t : List (Nat × α)) (a m : Nat) (v : α) :
    tableGet (tablePut t a v) m = if m = a then some v else tableGet t m := by
  by_cases h : m = a
  · simp [h, tableGet_put_same]
  · simp [h, tableGet_put_other]

/-- Setting a key twice is setting it once. -/
theorem tablePut_put {α : Type} (t : List (Nat × α)) (a : Nat) (v w : α) : tablePut (tablePut t a v) a w = tablePut t a w := by
  induction t with
  | nil => simp [tablePut]
  | cons x t ih =>
    obtain ⟨k, u⟩ := x
    by_cases h1 : a = k
    · simp [tablePut, h1]
    · by_cases h2 : a < k
      · simp [tablePut, h1, h2]
      · simp [tablePut, h1, h2, ih]

/-- Every entry of a table with a key set is the new one or an old one. -/
theorem mem_tablePut {α : Type} {t : List (Nat × α)} {a : Nat} {v : α} {e : Nat × α} (h : e ∈ tablePut t a v) :
    e = (a, v) ∨ e ∈ t := by
  induction t with
  | nil => simpa [tablePut] using h
  | cons x t ih =>
    obtain ⟨k, w⟩ := x
    by_cases h1 : a = k
    · simp only [tablePut, h1, if_true, List.mem_cons] at h
      rcases h with h | h
      · exact .inl (by rw [h, h1])
      · exact .inr (List.mem_cons_of_mem _ h)
    · by_cases h2 : a < k
      · simp only [tablePut, h1, h2, if_true, if_false, List.mem_cons] at h
        rcases h with h | h | h
        · exact .inl h
        · exact .inr (by simp [h])
        · exact .inr (List.mem_cons_of_mem _ h)
      · simp only [tablePut, h1, h2, if_false, List.mem_cons] at h
        rcases h with h | h
        · exact .inr (by simp [h])
        · rcases ih h with h | h
          · exact .inl h
          · exact .inr (List.mem_cons_of_mem _ h)

/-- A table without a key is part of the table. -/
theorem tableDrop_sublist {α : Type} (t : List (Nat × α)) (a : Nat) : (tableDrop t a).Sublist t := by
  induction t with
  | nil => simp [tableDrop]
  | cons x t ih =>
    obtain ⟨k, w⟩ := x
    by_cases h1 : a = k
    · simp [tableDrop, h1]
    · by_cases h2 : a < k
      · simp [tableDrop, h1, h2]
      · simpa [tableDrop, h1, h2] using ih

theorem tableRising_put {α : Type} {t : List (Nat × α)} (a : Nat) (v : α) (h : tableRising t = true) :
    tableRising (tablePut t a v) = true := by
  rw [tableRising_iff] at h ⊢
  induction t with
  | nil => simp [tablePut]
  | cons x t ih =>
    obtain ⟨k, w⟩ := x
    rw [List.pairwise_cons] at h
    obtain ⟨hk, ht⟩ := h
    by_cases h1 : a = k
    · subst h1; simpa [tablePut] using ⟨fun b u hb => hk (b, u) hb, ht⟩
    · by_cases h2 : a < k
      · simp only [tablePut, h1, h2, if_true, if_false, List.pairwise_cons]
        refine ⟨fun z hz => ?_, hk, ht⟩
        rcases List.mem_cons.mp hz with rfl | hz
        · exact h2
        · exact h2.trans (hk z hz)
      · simp only [tablePut, h1, h2, if_false, List.pairwise_cons]
        refine ⟨fun z hz => ?_, ih ht⟩
        rcases mem_tablePut hz with rfl | hz
        · exact Nat.lt_of_le_of_ne (Nat.le_of_not_lt h2) (Ne.symm h1)
        · exact hk z hz

theorem tableRising_drop {α : Type} {t : List (Nat × α)} (a : Nat) (h : tableRising t = true) :
    tableRising (tableDrop t a) = true := by
  rw [tableRising_iff] at h ⊢
  exact h.sublist (tableDrop_sublist t a)

/-- A key below every key of a table is not in it. -/
theorem tableGet_none_of_lt {α : Type} {t : List (Nat × α)} {a : Nat} (h : ∀ e ∈ t, a < e.1) : tableGet t a = none := by
  cases t with
  | nil => rfl
  | cons x t =>
    obtain ⟨k, w⟩ := x
    have hk : a < k := h (k, w) List.mem_cons_self
    simp [tableGet, hk, Nat.ne_of_lt hk]

theorem tableGet_drop {α : Type} {t : List (Nat × α)} (a m : Nat) (h : tableRising t = true) :
    tableGet (tableDrop t a) m = if m = a then none else tableGet t m := by
  rw [tableRising_iff] at h
  induction t with
  | nil => simp [tableDrop, tableGet]
  | cons x t ih =>
    obtain ⟨k, w⟩ := x
    rw [List.pairwise_cons] at h
    obtain ⟨hk, ht⟩ := h
    by_cases h1 : a = k
    · subst h1
      simp only [tableDrop, if_true]
      by_cases hm : m = a
      · subst hm; simpa using tableGet_none_of_lt hk
      · by_cases h3 : m < a
        · simp only [tableGet, hm, h3, if_true, if_false]
          exact tableGet_none_of_lt fun e he => h3.trans (hk e he)
        · simp [tableGet, hm, h3]
    · by_cases h2 : a < k
      · simp only [tableDrop, h1, h2, if_true, if_false]
        by_cases hm : m = a
        · subst hm; simp [tableGet, h1, h2]
        · simp [hm]
      · simp only [tableDrop, h1, h2, if_false, tableGet]
        rw [ih ht]
        by_cases hm : m = a
        · subst hm; simp [h1, h2]
        · simp [hm]

/-- Every entry of a rising table is what its key gives. -/
theorem tableGet_of_mem {α : Type} {t : List (Nat × α)} {a : Nat} {v : α} (h : tableRising t = true) (he : (a, v) ∈ t) :
    tableGet t a = some v := by
  rw [tableRising_iff] at h
  induction t with
  | nil => simp at he
  | cons x t ih =>
    obtain ⟨k, w⟩ := x
    rw [List.pairwise_cons] at h
    rcases List.mem_cons.mp he with he | he
    · obtain ⟨rfl, rfl⟩ := Prod.mk.inj he
      simp [tableGet]
    · have hk : k < a := h.1 (a, v) he
      rw [tableGet, if_neg (by omega), if_neg (by omega)]
      exact ih h.2 he

theorem mem_of_tableGet {α : Type} {t : List (Nat × α)} {a : Nat} {v : α} (h : tableGet t a = some v) : (a, v) ∈ t := by
  induction t with
  | nil => simp [tableGet] at h
  | cons x t ih =>
    obtain ⟨k, w⟩ := x
    rw [tableGet] at h
    split at h
    · next hk => obtain rfl := Option.some.inj h; simp [hk]
    · split at h
      · cases h
      · exact List.mem_cons_of_mem _ (ih h)

/-- Two rising tables that give the same at every key are the same table. -/
theorem table_ext {α : Type} {t u : List (Nat × α)} (ht : tableRising t = true) (hu : tableRising u = true)
    (h : ∀ a, tableGet t a = tableGet u a) : t = u := by
  have mem_iff : ∀ e : Nat × α, e ∈ t ↔ e ∈ u := fun e => by
    obtain ⟨a, v⟩ := e
    constructor
    · intro he; exact mem_of_tableGet (by rw [← h a]; exact tableGet_of_mem ht he)
    · intro he; exact mem_of_tableGet (by rw [h a]; exact tableGet_of_mem hu he)
  rw [tableRising_iff] at ht hu
  have nt : t.Nodup := ht.imp fun hab heq => by rw [heq] at hab; exact Nat.lt_irrefl _ hab
  have nu : u.Nodup := hu.imp fun hab heq => by rw [heq] at hab; exact Nat.lt_irrefl _ hab
  exact List.Perm.eq_of_pairwise (fun a b _ _ hab hba => absurd hab (by omega)) ht hu ((List.perm_ext_iff_of_nodup nt nu).mpr mem_iff)

/-! ### Exchange memory -/

/-- What the canonical form says, in one conjunction. -/
theorem Memory.wf_iff (m : Memory) :
    m.wf = true ↔ tableRising m = true ∧ ∀ c ∈ m, c.1 < 65536 ∧ c.2 ≠ unlistedByte := by
  simp [Memory.wf, List.all_eq_true]

theorem Memory.read_write_same (m : Memory) {a : Nat} (b : Byte) (hm : m.wf = true) (ha : a < 65536) :
    Memory.read (Memory.write m a b) a = b := by
  have hr := ((Memory.wf_iff m).mp hm).1
  unfold Memory.read Memory.write
  rw [if_neg (by omega)]
  split
  · next hb => rw [tableGet_drop a a hr]; simp [hb]
  · simp [tableGet_put_same]

theorem Memory.read_write_other (m : Memory) {a a' : Nat} (b : Byte) (hm : m.wf = true) (h : a' ≠ a) :
    Memory.read (Memory.write m a b) a' = Memory.read m a' := by
  have hr := ((Memory.wf_iff m).mp hm).1
  unfold Memory.read Memory.write
  split
  · rfl
  · split
    · rw [tableGet_drop a a' hr]; simp [h]
    · rw [tableGet_put_other m b h]

/-- Every write keeps the canonical form. -/
theorem Memory.wf_write (m : Memory) (a : Nat) (b : Byte) (hm : m.wf = true) : (Memory.write m a b).wf = true := by
  rw [Memory.wf_iff] at hm ⊢
  unfold Memory.write
  split
  · exact hm
  · next ha =>
    split
    · exact ⟨tableRising_drop a hm.1, fun c hc => hm.2 c ((tableDrop_sublist m a).subset hc)⟩
    · next hb =>
      refine ⟨tableRising_put a b hm.1, fun c hc => ?_⟩
      rcases mem_tablePut hc with rfl | hc
      · exact ⟨by omega, hb⟩
      · exact hm.2 c hc

theorem Memory.wf_nil : Memory.wf [] = true := rfl

theorem Memory.wf_writeList (bs : List Byte) : ∀ (m : Memory) (a : Nat), m.wf = true → (Memory.writeList m a bs).wf = true := by
  induction bs with
  | nil => intro m a h; exact h
  | cons b bs ih => intro m a h; exact ih _ _ (Memory.wf_write m a b h)

/-- Bytes outside those stored read as before. -/
theorem Memory.read_writeList_outside (bs : List Byte) : ∀ (m : Memory) (a a' : Nat), m.wf = true →
    a' < a ∨ a + bs.length ≤ a' → Memory.read (Memory.writeList m a bs) a' = Memory.read m a' := by
  induction bs with
  | nil => intro m a a' _ _; rfl
  | cons b bs ih =>
    intro m a a' hm h
    have hlen : (b :: bs).length = bs.length + 1 := rfl
    rw [Memory.writeList, ih _ _ _ (Memory.wf_write m a b hm) (by omega), Memory.read_write_other m b hm (by omega)]

/-- Each byte stored reads back. -/
theorem Memory.read_writeList_inside (bs : List Byte) : ∀ (m : Memory) (a i : Nat), m.wf = true → (hi : i < bs.length) →
    a + i < 65536 → Memory.read (Memory.writeList m a bs) (a + i) = bs[i] := by
  induction bs with
  | nil => intro m a i _ hi _; exact absurd hi (Nat.not_lt_zero i)
  | cons b bs ih =>
    intro m a i hm hi ha
    cases i with
    | zero =>
      rw [Memory.writeList, Memory.read_writeList_outside bs _ _ _ (Memory.wf_write m a b hm) (by omega)]
      exact Memory.read_write_same m b hm (by omega)
    | succ i =>
      have := ih (m.write a b) (a + 1) i (Memory.wf_write m a b hm) (by simpa using hi) (by omega)
      rw [Memory.writeList, show a + (i + 1) = a + 1 + i by omega, this]
      rfl

/-- The memory made of given bytes is in canonical form. -/
theorem Memory.wf_ofCells (cells : List Host.Cell) : (Memory.ofCells cells).wf = true := by
  have aux : ∀ (cs : List Host.Cell) (m : Memory), m.wf = true → (cs.foldl (fun m c => Memory.write m c.1 c.2) m).wf = true := by
    intro cs
    induction cs with
    | nil => intro m h; exact h
    | cons c cs ih => intro m h; exact ih _ (Memory.wf_write m c.1 c.2 h)
  exact aux cells [] Memory.wf_nil

/-- Two memories in canonical form that read alike are the same. -/
theorem Memory.ext_read {m n : Memory} (hm : m.wf = true) (hn : n.wf = true) (h : ∀ a, Memory.read m a = Memory.read n a) : m = n := by
  rw [Memory.wf_iff] at hm hn
  have listed : ∀ {k : Memory}, (∀ c ∈ k, c.1 < 65536 ∧ c.2 ≠ unlistedByte) → ∀ {a b}, tableGet k a = some b → b ≠ unlistedByte :=
    fun hk a b hab => (hk (a, b) (mem_of_tableGet hab)).2
  refine table_ext hm.1 hn.1 fun a => ?_
  have ha := h a
  unfold Memory.read at ha
  cases h1 : tableGet m a with
  | none =>
    cases h2 : tableGet n a with
    | none => rfl
    | some b => rw [h1, h2] at ha; exact absurd ha.symm (listed hn.2 h2)
  | some b =>
    cases h2 : tableGet n a with
    | none => rw [h1, h2] at ha; exact absurd ha (listed hm.2 h1)
    | some c => rw [h1, h2] at ha; simpa using ha

end Sys2Proof.Machine
end

