-- ==== Sys2Proof/Laws/State.lean ====
section
/-!
SUPPORT. Laws/State.lean: what each named update does to each field of State, and to the records of the four lines.
-/
namespace Sys2Proof

/-! ### The four lines -/

@[simp] theorem Four.get_set_same {α : Type} (v : Four α) (n : LineNo) (x : α) : (v.set n x).get n = x := by
  match n with
  | 0 => rfl
  | 1 => rfl
  | 2 => rfl
  | 3 => rfl

theorem Four.get_set_other {α : Type} (v : Four α) {n m : LineNo} (x : α) (h : m ≠ n) : (v.set n x).get m = v.get m := by
  match n, m with
  | 0, 0 => exact absurd rfl h
  | 0, 1 => rfl
  | 0, 2 => rfl
  | 0, 3 => rfl
  | 1, 0 => rfl
  | 1, 1 => exact absurd rfl h
  | 1, 2 => rfl
  | 1, 3 => rfl
  | 2, 0 => rfl
  | 2, 1 => rfl
  | 2, 2 => exact absurd rfl h
  | 2, 3 => rfl
  | 3, 0 => rfl
  | 3, 1 => rfl
  | 3, 2 => rfl
  | 3, 3 => exact absurd rfl h

theorem Four.get_set {α : Type} (v : Four α) (n m : LineNo) (x : α) :
    (v.set n x).get m = if m = n then x else v.get m := by
  by_cases h : m = n
  · simp [h]
  · simp [h, Four.get_set_other v x h]

@[simp] theorem Four.set_get {α : Type} (v : Four α) (n : LineNo) : v.set n (v.get n) = v := by
  match n with
  | 0 => rfl
  | 1 => rfl
  | 2 => rfl
  | 3 => rfl

@[simp] theorem Four.set_set {α : Type} (v : Four α) (n : LineNo) (x y : α) : (v.set n x).set n y = v.set n y := by
  match n with
  | 0 => rfl
  | 1 => rfl
  | 2 => rfl
  | 3 => rfl

@[simp] theorem Four.get_all {α : Type} (x : α) (n : LineNo) : (Four.all x).get n = x := by
  match n with
  | 0 => rfl
  | 1 => rfl
  | 2 => rfl
  | 3 => rfl

@[simp] theorem Four.get_mapIdx {α β : Type} (f : LineNo → α → β) (v : Four α) (n : LineNo) :
    (v.mapIdx f).get n = f n (v.get n) := by
  match n with
  | 0 => rfl
  | 1 => rfl
  | 2 => rfl
  | 3 => rfl

/-- Two fours that agree line by line are equal. -/
theorem Four.ext_get {α : Type} {v w : Four α} (h : ∀ n, v.get n = w.get n) : v = w := by
  have h0 : v.l0 = w.l0 := h 0
  have h1 : v.l1 = w.l1 := h 1
  have h2 : v.l2 = w.l2 := h 2
  have h3 : v.l3 = w.l3 := h 3
  cases v; cases w; simp_all

theorem Four.set_comm {α : Type} (v : Four α) {n m : LineNo} (x y : α) (h : n ≠ m) :
    (v.set n x).set m y = (v.set m y).set n x := by
  apply Four.ext_get
  intro k
  simp only [Four.get_set]
  by_cases hm : k = m
  · simp [hm, Ne.symm h]
  · simp [hm]

namespace Machine

variable (s : State)

/-! ### putByte -/

@[simp] theorem State.putByte_clock (a : Nat) (b : Byte) : (s.putByte a b).clock = s.clock := rfl
@[simp] theorem State.putByte_due (a : Nat) (b : Byte) : (s.putByte a b).due = s.due := rfl
@[simp] theorem State.putByte_mem (a : Nat) (b : Byte) : (s.putByte a b).mem = s.mem.write a b := rfl
@[simp] theorem State.putByte_ex (a : Nat) (b : Byte) : (s.putByte a b).ex = s.ex := rfl
@[simp] theorem State.putByte_bus (a : Nat) (b : Byte) : (s.putByte a b).bus = s.bus := rfl
@[simp] theorem State.putByte_chan (a : Nat) (b : Byte) : (s.putByte a b).chan = s.chan := rfl
@[simp] theorem State.putByte_cap (a : Nat) (b : Byte) : (s.putByte a b).cap = s.cap := rfl
@[simp] theorem State.putByte_port (a : Nat) (b : Byte) : (s.putByte a b).port = s.port := rfl
@[simp] theorem State.putByte_ring (a : Nat) (b : Byte) : (s.putByte a b).ring = s.ring := rfl
@[simp] theorem State.putByte_ident (a : Nat) (b : Byte) : (s.putByte a b).ident = s.ident := rfl
@[simp] theorem State.putByte_arb (a : Nat) (b : Byte) : (s.putByte a b).arb = s.arb := rfl
@[simp] theorem State.putByte_tone (a : Nat) (b : Byte) : (s.putByte a b).tone = s.tone := rfl
@[simp] theorem State.putByte_verdict (a : Nat) (b : Byte) : (s.putByte a b).verdict = s.verdict := rfl
@[simp] theorem State.putByte_marks (a : Nat) (b : Byte) : (s.putByte a b).marks = s.marks := rfl
@[simp] theorem State.putByte_pending (a : Nat) (b : Byte) : (s.putByte a b).pending = s.pending := rfl

/-! ### putCell -/

@[simp] theorem State.putCell_clock (n : CellNo) (off : Nat) (bs : List Byte) : (s.putCell n off bs).clock = s.clock := rfl
@[simp] theorem State.putCell_due (n : CellNo) (off : Nat) (bs : List Byte) : (s.putCell n off bs).due = s.due := rfl
@[simp] theorem State.putCell_mem (n : CellNo) (off : Nat) (bs : List Byte) : (s.putCell n off bs).mem = s.mem.writeList (cellAddr n off) bs := rfl
@[simp] theorem State.putCell_ex (n : CellNo) (off : Nat) (bs : List Byte) : (s.putCell n off bs).ex = s.ex := rfl
@[simp] theorem State.putCell_bus (n : CellNo) (off : Nat) (bs : List Byte) : (s.putCell n off bs).bus = s.bus := rfl
@[simp] theorem State.putCell_chan (n : CellNo) (off : Nat) (bs : List Byte) : (s.putCell n off bs).chan = s.chan := rfl
@[simp] theorem State.putCell_cap (n : CellNo) (off : Nat) (bs : List Byte) : (s.putCell n off bs).cap = s.cap := rfl
@[simp] theorem State.putCell_port (n : CellNo) (off : Nat) (bs : List Byte) : (s.putCell n off bs).port = s.port := rfl
@[simp] theorem State.putCell_ring (n : CellNo) (off : Nat) (bs : List Byte) : (s.putCell n off bs).ring = s.ring := rfl
@[simp] theorem State.putCell_ident (n : CellNo) (off : Nat) (bs : List Byte) : (s.putCell n off bs).ident = s.ident := rfl
@[simp] theorem State.putCell_arb (n : CellNo) (off : Nat) (bs : List Byte) : (s.putCell n off bs).arb = s.arb := rfl
@[simp] theorem State.putCell_tone (n : CellNo) (off : Nat) (bs : List Byte) : (s.putCell n off bs).tone = s.tone := rfl
@[simp] theorem State.putCell_verdict (n : CellNo) (off : Nat) (bs : List Byte) : (s.putCell n off bs).verdict = s.verdict := rfl
@[simp] theorem State.putCell_marks (n : CellNo) (off : Nat) (bs : List Byte) : (s.putCell n off bs).marks = s.marks := rfl
@[simp] theorem State.putCell_pending (n : CellNo) (off : Nat) (bs : List Byte) : (s.putCell n off bs).pending = s.pending := rfl

/-! ### setChan -/

@[simp] theorem State.setChan_clock (n : LineNo) (c : Channel) : (s.setChan n c).clock = s.clock := rfl
@[simp] theorem State.setChan_due (n : LineNo) (c : Channel) : (s.setChan n c).due = s.due := rfl
@[simp] theorem State.setChan_mem (n : LineNo) (c : Channel) : (s.setChan n c).mem = s.mem := rfl
@[simp] theorem State.setChan_ex (n : LineNo) (c : Channel) : (s.setChan n c).ex = s.ex := rfl
@[simp] theorem State.setChan_bus (n : LineNo) (c : Channel) : (s.setChan n c).bus = s.bus := rfl
@[simp] theorem State.setChan_chan (n : LineNo) (c : Channel) : (s.setChan n c).chan = s.chan.set n c := rfl
@[simp] theorem State.setChan_cap (n : LineNo) (c : Channel) : (s.setChan n c).cap = s.cap := rfl
@[simp] theorem State.setChan_port (n : LineNo) (c : Channel) : (s.setChan n c).port = s.port := rfl
@[simp] theorem State.setChan_ring (n : LineNo) (c : Channel) : (s.setChan n c).ring = s.ring := rfl
@[simp] theorem State.setChan_ident (n : LineNo) (c : Channel) : (s.setChan n c).ident = s.ident := rfl
@[simp] theorem State.setChan_arb (n : LineNo) (c : Channel) : (s.setChan n c).arb = s.arb := rfl
@[simp] theorem State.setChan_tone (n : LineNo) (c : Channel) : (s.setChan n c).tone = s.tone := rfl
@[simp] theorem State.setChan_verdict (n : LineNo) (c : Channel) : (s.setChan n c).verdict = s.verdict := rfl
@[simp] theorem State.setChan_marks (n : LineNo) (c : Channel) : (s.setChan n c).marks = s.marks := rfl
@[simp] theorem State.setChan_pending (n : LineNo) (c : Channel) : (s.setChan n c).pending = s.pending := rfl

/-! ### setCap -/

@[simp] theorem State.setCap_clock (n : LineNo) (c : Capture) : (s.setCap n c).clock = s.clock := rfl
@[simp] theorem State.setCap_due (n : LineNo) (c : Capture) : (s.setCap n c).due = s.due := rfl
@[simp] theorem State.setCap_mem (n : LineNo) (c : Capture) : (s.setCap n c).mem = s.mem := rfl
@[simp] theorem State.setCap_ex (n : LineNo) (c : Capture) : (s.setCap n c).ex = s.ex := rfl
@[simp] theorem State.setCap_bus (n : LineNo) (c : Capture) : (s.setCap n c).bus = s.bus := rfl
@[simp] theorem State.setCap_chan (n : LineNo) (c : Capture) : (s.setCap n c).chan = s.chan := rfl
@[simp] theorem State.setCap_cap (n : LineNo) (c : Capture) : (s.setCap n c).cap = s.cap.set n c := rfl
@[simp] theorem State.setCap_port (n : LineNo) (c : Capture) : (s.setCap n c).port = s.port := rfl
@[simp] theorem State.setCap_ring (n : LineNo) (c : Capture) : (s.setCap n c).ring = s.ring := rfl
@[simp] theorem State.setCap_ident (n : LineNo) (c : Capture) : (s.setCap n c).ident = s.ident := rfl
@[simp] theorem State.setCap_arb (n : LineNo) (c : Capture) : (s.setCap n c).arb = s.arb := rfl
@[simp] theorem State.setCap_tone (n : LineNo) (c : Capture) : (s.setCap n c).tone = s.tone := rfl
@[simp] theorem State.setCap_verdict (n : LineNo) (c : Capture) : (s.setCap n c).verdict = s.verdict := rfl
@[simp] theorem State.setCap_marks (n : LineNo) (c : Capture) : (s.setCap n c).marks = s.marks := rfl
@[simp] theorem State.setCap_pending (n : LineNo) (c : Capture) : (s.setCap n c).pending = s.pending := rfl

/-! ### setPort -/

@[simp] theorem State.setPort_clock (n : LineNo) (c : Port) : (s.setPort n c).clock = s.clock := rfl
@[simp] theorem State.setPort_due (n : LineNo) (c : Port) : (s.setPort n c).due = s.due := rfl
@[simp] theorem State.setPort_mem (n : LineNo) (c : Port) : (s.setPort n c).mem = s.mem := rfl
@[simp] theorem State.setPort_ex (n : LineNo) (c : Port) : (s.setPort n c).ex = s.ex := rfl
@[simp] theorem State.setPort_bus (n : LineNo) (c : Port) : (s.setPort n c).bus = s.bus := rfl
@[simp] theorem State.setPort_chan (n : LineNo) (c : Port) : (s.setPort n c).chan = s.chan := rfl
@[simp] theorem State.setPort_cap (n : LineNo) (c : Port) : (s.setPort n c).cap = s.cap := rfl
@[simp] theorem State.setPort_port (n : LineNo) (c : Port) : (s.setPort n c).port = s.port.set n c := rfl
@[simp] theorem State.setPort_ring (n : LineNo) (c : Port) : (s.setPort n c).ring = s.ring := rfl
@[simp] theorem State.setPort_ident (n : LineNo) (c : Port) : (s.setPort n c).ident = s.ident := rfl
@[simp] theorem State.setPort_arb (n : LineNo) (c : Port) : (s.setPort n c).arb = s.arb := rfl
@[simp] theorem State.setPort_tone (n : LineNo) (c : Port) : (s.setPort n c).tone = s.tone := rfl
@[simp] theorem State.setPort_verdict (n : LineNo) (c : Port) : (s.setPort n c).verdict = s.verdict := rfl
@[simp] theorem State.setPort_marks (n : LineNo) (c : Port) : (s.setPort n c).marks = s.marks := rfl
@[simp] theorem State.setPort_pending (n : LineNo) (c : Port) : (s.setPort n c).pending = s.pending := rfl

/-! ### setRing -/

@[simp] theorem State.setRing_clock (n : LineNo) (c : Ring) : (s.setRing n c).clock = s.clock := rfl
@[simp] theorem State.setRing_due (n : LineNo) (c : Ring) : (s.setRing n c).due = s.due := rfl
@[simp] theorem State.setRing_mem (n : LineNo) (c : Ring) : (s.setRing n c).mem = s.mem := rfl
@[simp] theorem State.setRing_ex (n : LineNo) (c : Ring) : (s.setRing n c).ex = s.ex := rfl
@[simp] theorem State.setRing_bus (n : LineNo) (c : Ring) : (s.setRing n c).bus = s.bus := rfl
@[simp] theorem State.setRing_chan (n : LineNo) (c : Ring) : (s.setRing n c).chan = s.chan := rfl
@[simp] theorem State.setRing_cap (n : LineNo) (c : Ring) : (s.setRing n c).cap = s.cap := rfl
@[simp] theorem State.setRing_port (n : LineNo) (c : Ring) : (s.setRing n c).port = s.port := rfl
@[simp] theorem State.setRing_ring (n : LineNo) (c : Ring) : (s.setRing n c).ring = s.ring.set n c := rfl
@[simp] theorem State.setRing_ident (n : LineNo) (c : Ring) : (s.setRing n c).ident = s.ident := rfl
@[simp] theorem State.setRing_arb (n : LineNo) (c : Ring) : (s.setRing n c).arb = s.arb := rfl
@[simp] theorem State.setRing_tone (n : LineNo) (c : Ring) : (s.setRing n c).tone = s.tone := rfl
@[simp] theorem State.setRing_verdict (n : LineNo) (c : Ring) : (s.setRing n c).verdict = s.verdict := rfl
@[simp] theorem State.setRing_marks (n : LineNo) (c : Ring) : (s.setRing n c).marks = s.marks := rfl
@[simp] theorem State.setRing_pending (n : LineNo) (c : Ring) : (s.setRing n c).pending = s.pending := rfl

/-! ### setIdent -/

@[simp] theorem State.setIdent_clock (n : LineNo) (c : Ident) : (s.setIdent n c).clock = s.clock := rfl
@[simp] theorem State.setIdent_due (n : LineNo) (c : Ident) : (s.setIdent n c).due = s.due := rfl
@[simp] theorem State.setIdent_mem (n : LineNo) (c : Ident) : (s.setIdent n c).mem = s.mem := rfl
@[simp] theorem State.setIdent_ex (n : LineNo) (c : Ident) : (s.setIdent n c).ex = s.ex := rfl
@[simp] theorem State.setIdent_bus (n : LineNo) (c : Ident) : (s.setIdent n c).bus = s.bus := rfl
@[simp] theorem State.setIdent_chan (n : LineNo) (c : Ident) : (s.setIdent n c).chan = s.chan := rfl
@[simp] theorem State.setIdent_cap (n : LineNo) (c : Ident) : (s.setIdent n c).cap = s.cap := rfl
@[simp] theorem State.setIdent_port (n : LineNo) (c : Ident) : (s.setIdent n c).port = s.port := rfl
@[simp] theorem State.setIdent_ring (n : LineNo) (c : Ident) : (s.setIdent n c).ring = s.ring := rfl
@[simp] theorem State.setIdent_ident (n : LineNo) (c : Ident) : (s.setIdent n c).ident = s.ident.set n c := rfl
@[simp] theorem State.setIdent_arb (n : LineNo) (c : Ident) : (s.setIdent n c).arb = s.arb := rfl
@[simp] theorem State.setIdent_tone (n : LineNo) (c : Ident) : (s.setIdent n c).tone = s.tone := rfl
@[simp] theorem State.setIdent_verdict (n : LineNo) (c : Ident) : (s.setIdent n c).verdict = s.verdict := rfl
@[simp] theorem State.setIdent_marks (n : LineNo) (c : Ident) : (s.setIdent n c).marks = s.marks := rfl
@[simp] theorem State.setIdent_pending (n : LineNo) (c : Ident) : (s.setIdent n c).pending = s.pending := rfl

/-! ### setTone -/

@[simp] theorem State.setTone_clock (n : LineNo) (c : Tone) : (s.setTone n c).clock = s.clock := rfl
@[simp] theorem State.setTone_due (n : LineNo) (c : Tone) : (s.setTone n c).due = s.due := rfl
@[simp] theorem State.setTone_mem (n : LineNo) (c : Tone) : (s.setTone n c).mem = s.mem := rfl
@[simp] theorem State.setTone_ex (n : LineNo) (c : Tone) : (s.setTone n c).ex = s.ex := rfl
@[simp] theorem State.setTone_bus (n : LineNo) (c : Tone) : (s.setTone n c).bus = s.bus := rfl
@[simp] theorem State.setTone_chan (n : LineNo) (c : Tone) : (s.setTone n c).chan = s.chan := rfl
@[simp] theorem State.setTone_cap (n : LineNo) (c : Tone) : (s.setTone n c).cap = s.cap := rfl
@[simp] theorem State.setTone_port (n : LineNo) (c : Tone) : (s.setTone n c).port = s.port := rfl
@[simp] theorem State.setTone_ring (n : LineNo) (c : Tone) : (s.setTone n c).ring = s.ring := rfl
@[simp] theorem State.setTone_ident (n : LineNo) (c : Tone) : (s.setTone n c).ident = s.ident := rfl
@[simp] theorem State.setTone_arb (n : LineNo) (c : Tone) : (s.setTone n c).arb = s.arb := rfl
@[simp] theorem State.setTone_tone (n : LineNo) (c : Tone) : (s.setTone n c).tone = s.tone.set n c := rfl
@[simp] theorem State.setTone_verdict (n : LineNo) (c : Tone) : (s.setTone n c).verdict = s.verdict := rfl
@[simp] theorem State.setTone_marks (n : LineNo) (c : Tone) : (s.setTone n c).marks = s.marks := rfl
@[simp] theorem State.setTone_pending (n : LineNo) (c : Tone) : (s.setTone n c).pending = s.pending := rfl

/-! ### setVerdict -/

@[simp] theorem State.setVerdict_clock (n : LineNo) (c : Verdict) : (s.setVerdict n c).clock = s.clock := rfl
@[simp] theorem State.setVerdict_due (n : LineNo) (c : Verdict) : (s.setVerdict n c).due = s.due := rfl
@[simp] theorem State.setVerdict_mem (n : LineNo) (c : Verdict) : (s.setVerdict n c).mem = s.mem := rfl
@[simp] theorem State.setVerdict_ex (n : LineNo) (c : Verdict) : (s.setVerdict n c).ex = s.ex := rfl
@[simp] theorem State.setVerdict_bus (n : LineNo) (c : Verdict) : (s.setVerdict n c).bus = s.bus := rfl
@[simp] theorem State.setVerdict_chan (n : LineNo) (c : Verdict) : (s.setVerdict n c).chan = s.chan := rfl
@[simp] theorem State.setVerdict_cap (n : LineNo) (c : Verdict) : (s.setVerdict n c).cap = s.cap := rfl
@[simp] theorem State.setVerdict_port (n : LineNo) (c : Verdict) : (s.setVerdict n c).port = s.port := rfl
@[simp] theorem State.setVerdict_ring (n : LineNo) (c : Verdict) : (s.setVerdict n c).ring = s.ring := rfl
@[simp] theorem State.setVerdict_ident (n : LineNo) (c : Verdict) : (s.setVerdict n c).ident = s.ident := rfl
@[simp] theorem State.setVerdict_arb (n : LineNo) (c : Verdict) : (s.setVerdict n c).arb = s.arb := rfl
@[simp] theorem State.setVerdict_tone (n : LineNo) (c : Verdict) : (s.setVerdict n c).tone = s.tone := rfl
@[simp] theorem State.setVerdict_verdict (n : LineNo) (c : Verdict) : (s.setVerdict n c).verdict = s.verdict.set n c := rfl
@[simp] theorem State.setVerdict_marks (n : LineNo) (c : Verdict) : (s.setVerdict n c).marks = s.marks := rfl
@[simp] theorem State.setVerdict_pending (n : LineNo) (c : Verdict) : (s.setVerdict n c).pending = s.pending := rfl

/-! ### setKept -/

@[simp] theorem State.setKept_clock (n : CellNo) (k : Kept) : (s.setKept n k).clock = s.clock := rfl
@[simp] theorem State.setKept_due (n : CellNo) (k : Kept) : (s.setKept n k).due = s.due := rfl
@[simp] theorem State.setKept_mem (n : CellNo) (k : Kept) : (s.setKept n k).mem = s.mem := rfl
@[simp] theorem State.setKept_ex (n : CellNo) (k : Kept) : (s.setKept n k).ex = { s.ex with keeping := tablePut s.ex.keeping n.val k } := rfl
@[simp] theorem State.setKept_bus (n : CellNo) (k : Kept) : (s.setKept n k).bus = s.bus := rfl
@[simp] theorem State.setKept_chan (n : CellNo) (k : Kept) : (s.setKept n k).chan = s.chan := rfl
@[simp] theorem State.setKept_cap (n : CellNo) (k : Kept) : (s.setKept n k).cap = s.cap := rfl
@[simp] theorem State.setKept_port (n : CellNo) (k : Kept) : (s.setKept n k).port = s.port := rfl
@[simp] theorem State.setKept_ring (n : CellNo) (k : Kept) : (s.setKept n k).ring = s.ring := rfl
@[simp] theorem State.setKept_ident (n : CellNo) (k : Kept) : (s.setKept n k).ident = s.ident := rfl
@[simp] theorem State.setKept_arb (n : CellNo) (k : Kept) : (s.setKept n k).arb = s.arb := rfl
@[simp] theorem State.setKept_tone (n : CellNo) (k : Kept) : (s.setKept n k).tone = s.tone := rfl
@[simp] theorem State.setKept_verdict (n : CellNo) (k : Kept) : (s.setKept n k).verdict = s.verdict := rfl
@[simp] theorem State.setKept_marks (n : CellNo) (k : Kept) : (s.setKept n k).marks = s.marks := rfl
@[simp] theorem State.setKept_pending (n : CellNo) (k : Kept) : (s.setKept n k).pending = s.pending := rfl

/-! ### handOver -/

@[simp] theorem State.handOver_clock (n : CellNo) (b : Byte) : (s.handOver n b).clock = s.clock := rfl
@[simp] theorem State.handOver_due (n : CellNo) (b : Byte) : (s.handOver n b).due = s.due := rfl
@[simp] theorem State.handOver_mem (n : CellNo) (b : Byte) : (s.handOver n b).mem = s.mem.write n.val b := rfl
@[simp] theorem State.handOver_ex (n : CellNo) (b : Byte) : (s.handOver n b).ex = { s.ex with keeping := tableDrop s.ex.keeping n.val, ready := tallyAdd s.ex.ready } := rfl
@[simp] theorem State.handOver_bus (n : CellNo) (b : Byte) : (s.handOver n b).bus = s.bus := rfl
@[simp] theorem State.handOver_chan (n : CellNo) (b : Byte) : (s.handOver n b).chan = s.chan := rfl
@[simp] theorem State.handOver_cap (n : CellNo) (b : Byte) : (s.handOver n b).cap = s.cap := rfl
@[simp] theorem State.handOver_port (n : CellNo) (b : Byte) : (s.handOver n b).port = s.port := rfl
@[simp] theorem State.handOver_ring (n : CellNo) (b : Byte) : (s.handOver n b).ring = s.ring := rfl
@[simp] theorem State.handOver_ident (n : CellNo) (b : Byte) : (s.handOver n b).ident = s.ident := rfl
@[simp] theorem State.handOver_arb (n : CellNo) (b : Byte) : (s.handOver n b).arb = s.arb := rfl
@[simp] theorem State.handOver_tone (n : CellNo) (b : Byte) : (s.handOver n b).tone = s.tone := rfl
@[simp] theorem State.handOver_verdict (n : CellNo) (b : Byte) : (s.handOver n b).verdict = s.verdict := rfl
@[simp] theorem State.handOver_marks (n : CellNo) (b : Byte) : (s.handOver n b).marks = s.marks := rfl
@[simp] theorem State.handOver_pending (n : CellNo) (b : Byte) : (s.handOver n b).pending = s.pending := rfl

/-! ### undue -/

@[simp] theorem State.undue_clock (e : Event) : (s.undue e).clock = s.clock := rfl
@[simp] theorem State.undue_due (e : Event) : (s.undue e).due = s.due.without e := rfl
@[simp] theorem State.undue_mem (e : Event) : (s.undue e).mem = s.mem := rfl
@[simp] theorem State.undue_ex (e : Event) : (s.undue e).ex = s.ex := rfl
@[simp] theorem State.undue_bus (e : Event) : (s.undue e).bus = s.bus := rfl
@[simp] theorem State.undue_chan (e : Event) : (s.undue e).chan = s.chan := rfl
@[simp] theorem State.undue_cap (e : Event) : (s.undue e).cap = s.cap := rfl
@[simp] theorem State.undue_port (e : Event) : (s.undue e).port = s.port := rfl
@[simp] theorem State.undue_ring (e : Event) : (s.undue e).ring = s.ring := rfl
@[simp] theorem State.undue_ident (e : Event) : (s.undue e).ident = s.ident := rfl
@[simp] theorem State.undue_arb (e : Event) : (s.undue e).arb = s.arb := rfl
@[simp] theorem State.undue_tone (e : Event) : (s.undue e).tone = s.tone := rfl
@[simp] theorem State.undue_verdict (e : Event) : (s.undue e).verdict = s.verdict := rfl
@[simp] theorem State.undue_marks (e : Event) : (s.undue e).marks = s.marks := rfl
@[simp] theorem State.undue_pending (e : Event) : (s.undue e).pending = s.pending := rfl

/-! ### setTally -/

@[simp] theorem State.setTally_clock (t : Tally) (v : BitVec 8) : (s.setTally t v).clock = s.clock := by cases t <;> rfl
@[simp] theorem State.setTally_due (t : Tally) (v : BitVec 8) : (s.setTally t v).due = s.due := by cases t <;> rfl
@[simp] theorem State.setTally_mem (t : Tally) (v : BitVec 8) : (s.setTally t v).mem = s.mem := by cases t <;> rfl
@[simp] theorem State.setTally_bus (t : Tally) (v : BitVec 8) : (s.setTally t v).bus = s.bus := by cases t <;> rfl
@[simp] theorem State.setTally_chan (t : Tally) (v : BitVec 8) : (s.setTally t v).chan = s.chan := by cases t <;> rfl
@[simp] theorem State.setTally_cap (t : Tally) (v : BitVec 8) : (s.setTally t v).cap = s.cap := by cases t <;> rfl
@[simp] theorem State.setTally_port (t : Tally) (v : BitVec 8) : (s.setTally t v).port = s.port := by cases t <;> rfl
@[simp] theorem State.setTally_ring (t : Tally) (v : BitVec 8) : (s.setTally t v).ring = s.ring := by cases t <;> rfl
@[simp] theorem State.setTally_ident (t : Tally) (v : BitVec 8) : (s.setTally t v).ident = s.ident := by cases t <;> rfl
@[simp] theorem State.setTally_arb (t : Tally) (v : BitVec 8) : (s.setTally t v).arb = s.arb := by cases t <;> rfl
@[simp] theorem State.setTally_tone (t : Tally) (v : BitVec 8) : (s.setTally t v).tone = s.tone := by cases t <;> rfl
@[simp] theorem State.setTally_verdict (t : Tally) (v : BitVec 8) : (s.setTally t v).verdict = s.verdict := by cases t <;> rfl
@[simp] theorem State.setTally_marks (t : Tally) (v : BitVec 8) : (s.setTally t v).marks = s.marks := by cases t <;> rfl
@[simp] theorem State.setTally_pending (t : Tally) (v : BitVec 8) : (s.setTally t v).pending = s.pending := by cases t <;> rfl

@[simp] theorem State.setTally_posts_ex (v : BitVec 8) : (s.setTally .posts v).ex = { s.ex with posts := v } := rfl
@[simp] theorem State.setTally_ready_ex (v : BitVec 8) : (s.setTally .ready v).ex = { s.ex with ready := v } := rfl

/-! ### setRole: an entry of the keeping, whatever its clash flag -/

@[simp] theorem State.setRole_clock (n : CellNo) (r : Role) : (s.setRole n r).clock = s.clock := rfl
@[simp] theorem State.setRole_due (n : CellNo) (r : Role) : (s.setRole n r).due = s.due := rfl
@[simp] theorem State.setRole_mem (n : CellNo) (r : Role) : (s.setRole n r).mem = s.mem := rfl
@[simp] theorem State.setRole_bus (n : CellNo) (r : Role) : (s.setRole n r).bus = s.bus := rfl
@[simp] theorem State.setRole_chan (n : CellNo) (r : Role) : (s.setRole n r).chan = s.chan := rfl
@[simp] theorem State.setRole_cap (n : CellNo) (r : Role) : (s.setRole n r).cap = s.cap := rfl
@[simp] theorem State.setRole_port (n : CellNo) (r : Role) : (s.setRole n r).port = s.port := rfl
@[simp] theorem State.setRole_ring (n : CellNo) (r : Role) : (s.setRole n r).ring = s.ring := rfl
@[simp] theorem State.setRole_ident (n : CellNo) (r : Role) : (s.setRole n r).ident = s.ident := rfl
@[simp] theorem State.setRole_arb (n : CellNo) (r : Role) : (s.setRole n r).arb = s.arb := rfl
@[simp] theorem State.setRole_tone (n : CellNo) (r : Role) : (s.setRole n r).tone = s.tone := rfl
@[simp] theorem State.setRole_verdict (n : CellNo) (r : Role) : (s.setRole n r).verdict = s.verdict := rfl
@[simp] theorem State.setRole_marks (n : CellNo) (r : Role) : (s.setRole n r).marks = s.marks := rfl
@[simp] theorem State.setRole_pending (n : CellNo) (r : Role) : (s.setRole n r).pending = s.pending := rfl

/-! ### setGrant -/

@[simp] theorem State.setGrant_clock (a : Bool) (h : Option LineNo) : (s.setGrant a h).clock = s.clock := rfl
@[simp] theorem State.setGrant_due (a : Bool) (h : Option LineNo) : (s.setGrant a h).due = s.due := rfl
@[simp] theorem State.setGrant_mem (a : Bool) (h : Option LineNo) : (s.setGrant a h).mem = s.mem := rfl
@[simp] theorem State.setGrant_ex (a : Bool) (h : Option LineNo) : (s.setGrant a h).ex = s.ex := rfl
@[simp] theorem State.setGrant_bus (a : Bool) (h : Option LineNo) : (s.setGrant a h).bus = s.bus := rfl
@[simp] theorem State.setGrant_chan (a : Bool) (h : Option LineNo) : (s.setGrant a h).chan = s.chan := rfl
@[simp] theorem State.setGrant_cap (a : Bool) (h : Option LineNo) : (s.setGrant a h).cap = s.cap := rfl
@[simp] theorem State.setGrant_port (a : Bool) (h : Option LineNo) : (s.setGrant a h).port = s.port := rfl
@[simp] theorem State.setGrant_ring (a : Bool) (h : Option LineNo) : (s.setGrant a h).ring = s.ring := rfl
@[simp] theorem State.setGrant_ident (a : Bool) (h : Option LineNo) : (s.setGrant a h).ident = s.ident := rfl
@[simp] theorem State.setGrant_tone (a : Bool) (h : Option LineNo) : (s.setGrant a h).tone = s.tone := rfl
@[simp] theorem State.setGrant_verdict (a : Bool) (h : Option LineNo) : (s.setGrant a h).verdict = s.verdict := rfl
@[simp] theorem State.setGrant_marks (a : Bool) (h : Option LineNo) : (s.setGrant a h).marks = s.marks := rfl
@[simp] theorem State.setGrant_pending (a : Bool) (h : Option LineNo) : (s.setGrant a h).pending = s.pending := rfl
@[simp] theorem State.setGrant_a_arb (h : Option LineNo) : (s.setGrant true h).arb = { s.arb with grantA := h } := rfl
@[simp] theorem State.setGrant_b_arb (h : Option LineNo) : (s.setGrant false h).arb = { s.arb with grantB := h } := rfl

end Machine

end Sys2Proof
end

