-- ==== Sys2Proof/Laws/Exchange.lean ====
section
/-!
SUPPORT. Laws/Exchange.lean: what the shared operations of the exchange unit and the due events can do.
-/
namespace Sys2Proof.Machine

/-! ### Events -/

theorem State.takeEvent_taken (s : State) (e : Event) (effect : State → State) (h : s.canTake e = true) :
    s.takeEvent e effect = effect (s.undue e) := by
  unfold State.takeEvent
  rw [if_pos h]

theorem State.takeEvent_left (s : State) (e : Event) (effect : State → State) (h : s.canTake e = false) : s.takeEvent e effect = s := by
  unfold State.takeEvent
  rw [h]
  rfl

theorem State.canTake_halted (s : State) (e : Event) (h : s.clock.running = false) : s.canTake e = false := by
  unfold State.canTake
  rw [h]
  rfl

/-! ### The keeping -/

theorem State.keptAt_setKept_same (s : State) (n : CellNo) (k : Kept) : (s.setKept n k).keptAt n.val = some k :=
  tableGet_put_same _ _ _

theorem State.keptAt_setKept_other (s : State) (n : CellNo) (k : Kept) {m : Nat} (h : m ≠ n.val) :
    (s.setKept n k).keptAt m = s.keptAt m :=
  tableGet_put_other _ _ h

theorem State.keptAt_handOver (s : State) (n : CellNo) (stamp : Byte) (m : Nat) (hk : tableRising s.ex.keeping = true) :
    (s.handOver n stamp).keptAt m = if m = n.val then none else s.keptAt m :=
  tableGet_drop _ _ hk

theorem State.stamp_handOver_same (s : State) (n : CellNo) (stamp : Byte) (hm : s.mem.wf = true) :
    (s.handOver n stamp).stamp n = stamp :=
  Memory.read_write_same _ _ hm (Nat.lt_trans n.isLt (by decide))

theorem State.handOver_forms (s : State) (n : CellNo) (stamp : Byte) (hm : s.mem.wf = true) (hk : tableRising s.ex.keeping = true) :
    (s.handOver n stamp).mem.wf = true ∧ tableRising (s.handOver n stamp).ex.keeping = true :=
  ⟨Memory.wf_write _ _ _ hm, tableRising_drop _ hk⟩

/-- A claim gives the oldest spare cell, in the role asked for, and takes it from the stock; memory and all else stay. -/
theorem State.claim_eq (s u : State) (floor : Nat) (r : Role) (c : CellNo) (h : s.claim floor r = some (c, u)) :
    ∃ rest, s.ex.spare = c :: rest ∧ floor < s.ex.spare.length ∧
      u = { s with ex := { s.ex with
        spare := rest
        keeping := tablePut s.ex.keeping c.val { role := r, clash := ((s.keptAt c.val).map Kept.clash).getD false } } } := by
  unfold State.claim at h
  cases hs : s.ex.spare with
  | nil => simp [hs] at h
  | cons d rest =>
    rw [hs] at h
    dsimp only at h
    split at h
    · rename_i hf
      simp only [Option.some.injEq, Prod.mk.injEq] at h
      obtain ⟨rfl, rfl⟩ := h
      exact ⟨rest, rfl, hf, rfl⟩
    · exact absurd h (by simp)

theorem State.claim_none (s : State) (floor : Nat) (r : Role) : s.claim floor r = none ↔ s.ex.spare.length ≤ floor := by
  unfold State.claim
  cases s.ex.spare with
  | nil => simp
  | cons d rest =>
    dsimp only [List.length_cons]
    split
    · simp; omega
    · simp; omega

/-! ### References (R39) -/

/-- Dropping a reference changes memory and the exchange unit alone. -/
theorem State.dropRef_eq (s : State) (n : CellNo) :
    s.dropRef n = { s with mem := (s.dropRef n).mem, ex := (s.dropRef n).ex } := by
  unfold State.dropRef
  split
  · split <;> rfl
  · rfl

theorem State.dropRef_forms (s : State) (n : CellNo) (hm : s.mem.wf = true) (hk : tableRising s.ex.keeping = true) :
    (s.dropRef n).mem.wf = true ∧ tableRising (s.dropRef n).ex.keeping = true := by
  unfold State.dropRef
  split
  · split
    · exact State.handOver_forms s n _ hm hk
    · exact ⟨hm, tableRising_put _ _ hk⟩
  · exact ⟨hm, hk⟩

@[simp] theorem State.dropRef_clock (s : State) (n : CellNo) : (s.dropRef n).clock = s.clock := by rw [State.dropRef_eq]
@[simp] theorem State.dropRef_due (s : State) (n : CellNo) : (s.dropRef n).due = s.due := by rw [State.dropRef_eq]
@[simp] theorem State.dropRef_bus (s : State) (n : CellNo) : (s.dropRef n).bus = s.bus := by rw [State.dropRef_eq]
@[simp] theorem State.dropRef_chan (s : State) (n : CellNo) : (s.dropRef n).chan = s.chan := by rw [State.dropRef_eq]
@[simp] theorem State.dropRef_cap (s : State) (n : CellNo) : (s.dropRef n).cap = s.cap := by rw [State.dropRef_eq]
@[simp] theorem State.dropRef_port (s : State) (n : CellNo) : (s.dropRef n).port = s.port := by rw [State.dropRef_eq]
@[simp] theorem State.dropRef_ring (s : State) (n : CellNo) : (s.dropRef n).ring = s.ring := by rw [State.dropRef_eq]
@[simp] theorem State.dropRef_ident (s : State) (n : CellNo) : (s.dropRef n).ident = s.ident := by rw [State.dropRef_eq]
@[simp] theorem State.dropRef_arb (s : State) (n : CellNo) : (s.dropRef n).arb = s.arb := by rw [State.dropRef_eq]
@[simp] theorem State.dropRef_tone (s : State) (n : CellNo) : (s.dropRef n).tone = s.tone := by rw [State.dropRef_eq]
@[simp] theorem State.dropRef_verdict (s : State) (n : CellNo) : (s.dropRef n).verdict = s.verdict := by rw [State.dropRef_eq]
@[simp] theorem State.dropRef_marks (s : State) (n : CellNo) : (s.dropRef n).marks = s.marks := by rw [State.dropRef_eq]
@[simp] theorem State.dropRef_pending (s : State) (n : CellNo) : (s.dropRef n).pending = s.pending := by rw [State.dropRef_eq]

theorem State.dropRef_setChan (s : State) (p : LineNo) (x : Channel) (n : CellNo) :
    (s.setChan p x).dropRef n = (s.dropRef n).setChan p x := by
  unfold State.dropRef
  have h : (s.setChan p x).keptAt n.val = s.keptAt n.val := rfl
  rw [h]
  split
  · split <;> rfl
  · rfl

theorem State.dropRef_setCap (s : State) (p : LineNo) (x : Capture) (n : CellNo) :
    (s.setCap p x).dropRef n = (s.dropRef n).setCap p x := by
  unfold State.dropRef
  have h : (s.setCap p x).keptAt n.val = s.keptAt n.val := rfl
  rw [h]
  split
  · split <;> rfl
  · rfl

theorem State.dropRef_setPort (s : State) (p : LineNo) (x : Port) (n : CellNo) :
    (s.setPort p x).dropRef n = (s.dropRef n).setPort p x := by
  unfold State.dropRef
  have h : (s.setPort p x).keptAt n.val = s.keptAt n.val := rfl
  rw [h]
  split
  · split <;> rfl
  · rfl

theorem State.dropRef_setRing (s : State) (p : LineNo) (x : Ring) (n : CellNo) :
    (s.setRing p x).dropRef n = (s.dropRef n).setRing p x := by
  unfold State.dropRef
  have h : (s.setRing p x).keptAt n.val = s.keptAt n.val := rfl
  rw [h]
  split
  · split <;> rfl
  · rfl

theorem State.dropRef_setIdent (s : State) (p : LineNo) (x : Ident) (n : CellNo) :
    (s.setIdent p x).dropRef n = (s.dropRef n).setIdent p x := by
  unfold State.dropRef
  have h : (s.setIdent p x).keptAt n.val = s.keptAt n.val := rfl
  rw [h]
  split
  · split <;> rfl
  · rfl

theorem State.dropRef_setTone (s : State) (p : LineNo) (x : Tone) (n : CellNo) :
    (s.setTone p x).dropRef n = (s.dropRef n).setTone p x := by
  unfold State.dropRef
  have h : (s.setTone p x).keptAt n.val = s.keptAt n.val := rfl
  rw [h]
  split
  · split <;> rfl
  · rfl

theorem State.dropRef_setVerdict (s : State) (p : LineNo) (x : Verdict) (n : CellNo) :
    (s.setVerdict p x).dropRef n = (s.dropRef n).setVerdict p x := by
  unfold State.dropRef
  have h : (s.setVerdict p x).keptAt n.val = s.keptAt n.val := rfl
  rw [h]
  split
  · split <;> rfl
  · rfl

theorem State.dropRef_undue (s : State) (e : Event) (n : CellNo) : (s.undue e).dropRef n = (s.dropRef n).undue e := by
  unfold State.dropRef
  have h : (s.undue e).keptAt n.val = s.keptAt n.val := rfl
  rw [h]
  split
  · split <;> rfl
  · rfl

theorem State.dropRefs_eq (es : List Entry) : ∀ s : State,
    s.dropRefs es = { s with mem := (s.dropRefs es).mem, ex := (s.dropRefs es).ex } := by
  unfold State.dropRefs
  induction es with
  | nil => intro s; rfl
  | cons e es ih =>
    intro s
    simp only [List.foldl_cons]
    rw [ih (s.dropRef e.cell)]
    rw [State.dropRef_eq s e.cell]

@[simp] theorem State.dropRefs_clock (s : State) (es : List Entry) : (s.dropRefs es).clock = s.clock := by rw [State.dropRefs_eq]
@[simp] theorem State.dropRefs_due (s : State) (es : List Entry) : (s.dropRefs es).due = s.due := by rw [State.dropRefs_eq]
@[simp] theorem State.dropRefs_bus (s : State) (es : List Entry) : (s.dropRefs es).bus = s.bus := by rw [State.dropRefs_eq]
@[simp] theorem State.dropRefs_chan (s : State) (es : List Entry) : (s.dropRefs es).chan = s.chan := by rw [State.dropRefs_eq]
@[simp] theorem State.dropRefs_cap (s : State) (es : List Entry) : (s.dropRefs es).cap = s.cap := by rw [State.dropRefs_eq]
@[simp] theorem State.dropRefs_port (s : State) (es : List Entry) : (s.dropRefs es).port = s.port := by rw [State.dropRefs_eq]
@[simp] theorem State.dropRefs_ring (s : State) (es : List Entry) : (s.dropRefs es).ring = s.ring := by rw [State.dropRefs_eq]
@[simp] theorem State.dropRefs_ident (s : State) (es : List Entry) : (s.dropRefs es).ident = s.ident := by rw [State.dropRefs_eq]
@[simp] theorem State.dropRefs_arb (s : State) (es : List Entry) : (s.dropRefs es).arb = s.arb := by rw [State.dropRefs_eq]
@[simp] theorem State.dropRefs_tone (s : State) (es : List Entry) : (s.dropRefs es).tone = s.tone := by rw [State.dropRefs_eq]
@[simp] theorem State.dropRefs_verdict (s : State) (es : List Entry) : (s.dropRefs es).verdict = s.verdict := by rw [State.dropRefs_eq]
@[simp] theorem State.dropRefs_marks (s : State) (es : List Entry) : (s.dropRefs es).marks = s.marks := by rw [State.dropRefs_eq]
@[simp] theorem State.dropRefs_pending (s : State) (es : List Entry) : (s.dropRefs es).pending = s.pending := by rw [State.dropRefs_eq]

theorem State.dropRefs_setChan (es : List Entry) : ∀ (s : State) (p : LineNo) (x : Channel),
    (s.setChan p x).dropRefs es = (s.dropRefs es).setChan p x := by
  unfold State.dropRefs
  induction es with
  | nil => intro s p x; rfl
  | cons e es ih => intro s p x; simp only [List.foldl_cons, State.dropRef_setChan, ih]

theorem State.dropRefs_forms (es : List Entry) : ∀ s : State, s.mem.wf = true → tableRising s.ex.keeping = true →
    (s.dropRefs es).mem.wf = true ∧ tableRising (s.dropRefs es).ex.keeping = true := by
  unfold State.dropRefs
  induction es with
  | nil => intro s hm hk; exact ⟨hm, hk⟩
  | cons e es ih =>
    intro s hm hk
    have h := s.dropRef_forms e.cell hm hk
    exact ih _ h.1 h.2

end Sys2Proof.Machine
end

