-- ==== Sys2Proof/Laws/Marks.lean ====
section
/-!
SUPPORT. Laws/Marks.lean: what giving a mark can change: memory, the exchange unit and the mark writer, by those three and the present time
alone; and that memory and the keeping keep their forms.
-/
namespace Sys2Proof.Machine

/-- A state with the memory, the exchange unit, the mark writer and the clock of another: what giving a mark reads. -/
def State.graft (s t : State) : State := { s with mem := t.mem, ex := t.ex, marks := t.marks, clock := t.clock }

theorem State.graft_self (s : State) : s.graft s = s := rfl

theorem State.closeSheet_graft (s t : State) : (s.graft t).closeSheet = s.graft t.closeSheet := by
  unfold State.closeSheet
  have h : (s.graft t).marks.sheet = t.marks.sheet := rfl
  rw [h]
  cases t.marks.sheet <;> rfl

theorem State.writeMark_graft (s t : State) (m : Mark) : (s.graft t).writeMark m = s.graft (t.writeMark m) := by
  unfold State.writeMark
  have h : (s.graft t).marks.sheet = t.marks.sheet := rfl
  rw [h]
  cases t.marks.sheet with
  | none => rfl
  | some c =>
    show (if 28 ≤ t.marks.count + 1 then _ else _) = s.graft (if 28 ≤ t.marks.count + 1 then _ else _)
    split
    · exact State.closeSheet_graft s { t.putCell c (32 + 16 * t.marks.count) m.record with
        marks := { t.marks with count := t.marks.count + 1 } }
    · rfl

theorem State.foldl_writeMark_graft (ms : List Mark) : ∀ s t : State,
    ms.foldl State.writeMark (s.graft t) = s.graft (ms.foldl State.writeMark t) := by
  induction ms with
  | nil => intro s t; rfl
  | cons m ms ih => intro s t; simp only [List.foldl_cons, State.writeMark_graft, ih]

theorem State.fillSheet_graft (s t : State) : (s.graft t).fillSheet = s.graft t.fillSheet := by
  unfold State.fillSheet
  have h : (s.graft t).marks.lost = t.marks.lost := rfl
  have hm : (s.graft t).marksLost = t.marksLost := rfl
  rw [h, hm]
  by_cases hl : 0 < t.marks.lost
  · simp only [hl, if_true, State.writeMark_graft]
    exact State.foldl_writeMark_graft (t.writeMark t.marksLost).marks.queue s { t.writeMark t.marksLost with
      marks := { (t.writeMark t.marksLost).marks with lost := 0, queue := [] } }
  · simp only [hl, if_false]
    exact State.foldl_writeMark_graft t.marks.queue s { t with marks := { t.marks with queue := [] } }

theorem State.openSheet_graft (s t : State) : (s.graft t).openSheet = t.openSheet.map s.graft := by
  unfold State.openSheet State.claimMarks State.claim
  have h : (s.graft t).ex = t.ex := rfl
  rw [h]
  cases t.ex.spare with
  | nil => rfl
  | cons c rest => simp only [Nat.zero_lt_succ, if_true]; rfl

/-- Giving a mark reads and changes memory, the exchange unit and the mark writer alone, and reads the clock. -/
theorem State.giveMark_graft (s t : State) (m : Mark) : (s.graft t).giveMark m = s.graft (t.giveMark m) := by
  unfold State.giveMark
  have h : (s.graft t).marks = t.marks := rfl
  rw [h, State.openSheet_graft]
  cases t.marks.sheet with
  | some c => exact State.writeMark_graft s t m
  | none =>
    cases t.openSheet with
    | some u => simp only [Option.map_some, State.fillSheet_graft, State.writeMark_graft]
    | none =>
      simp only [Option.map_none]
      by_cases hq : t.marks.queue.length < 16
      · simp only [hq, if_true]; rfl
      · simp only [hq, if_false]; rfl

/-- Giving a mark does not move the clock. -/
theorem State.closeSheet_clock (s : State) : s.closeSheet.clock = s.clock := by
  unfold State.closeSheet
  cases s.marks.sheet <;> rfl

theorem State.writeMark_clock (s : State) (m : Mark) : (s.writeMark m).clock = s.clock := by
  unfold State.writeMark
  cases s.marks.sheet with
  | none => rfl
  | some c =>
    dsimp only
    split
    · exact State.closeSheet_clock _
    · rfl

theorem State.foldl_writeMark_clock (ms : List Mark) : ∀ s : State, (ms.foldl State.writeMark s).clock = s.clock := by
  induction ms with
  | nil => intro s; rfl
  | cons m ms ih => intro s; exact (ih _).trans (s.writeMark_clock m)

theorem State.fillSheet_clock (s : State) : s.fillSheet.clock = s.clock := by
  unfold State.fillSheet
  dsimp only
  split
  · exact (State.foldl_writeMark_clock _ _).trans (s.writeMark_clock _)
  · exact State.foldl_writeMark_clock _ _

theorem State.openSheet_clock (s u : State) (h : s.openSheet = some u) : u.clock = s.clock := by
  unfold State.openSheet State.claimMarks State.claim at h
  cases hs : s.ex.spare with
  | nil => simp [hs] at h
  | cons c rest => simp only [hs, Nat.zero_lt_succ, if_true, Option.some.injEq] at h; subst h; rfl

@[simp] theorem State.giveMark_clock (s : State) (m : Mark) : (s.giveMark m).clock = s.clock := by
  unfold State.giveMark
  cases s.marks.sheet with
  | some c => exact s.writeMark_clock m
  | none =>
    cases h : s.openSheet with
    | some u => exact (State.writeMark_clock _ m).trans ((State.fillSheet_clock u).trans (State.openSheet_clock s u h))
    | none => dsimp only; split <;> rfl

/-- A mark given: memory, the exchange unit and the mark writer may change, and nothing else does. -/
theorem State.giveMark_eq (s : State) (m : Mark) :
    s.giveMark m = { s with mem := (s.giveMark m).mem, ex := (s.giveMark m).ex, marks := (s.giveMark m).marks } := by
  have h : s.giveMark m = s.graft (s.giveMark m) := s.giveMark_graft s m
  have hc := s.giveMark_clock m
  unfold State.graft at h
  rw [hc] at h
  exact h
@[simp] theorem State.giveMark_due (s : State) (m : Mark) : (s.giveMark m).due = s.due := by rw [State.giveMark_eq]
@[simp] theorem State.giveMark_bus (s : State) (m : Mark) : (s.giveMark m).bus = s.bus := by rw [State.giveMark_eq]
@[simp] theorem State.giveMark_chan (s : State) (m : Mark) : (s.giveMark m).chan = s.chan := by rw [State.giveMark_eq]
@[simp] theorem State.giveMark_cap (s : State) (m : Mark) : (s.giveMark m).cap = s.cap := by rw [State.giveMark_eq]
@[simp] theorem State.giveMark_port (s : State) (m : Mark) : (s.giveMark m).port = s.port := by rw [State.giveMark_eq]
@[simp] theorem State.giveMark_ring (s : State) (m : Mark) : (s.giveMark m).ring = s.ring := by rw [State.giveMark_eq]
@[simp] theorem State.giveMark_ident (s : State) (m : Mark) : (s.giveMark m).ident = s.ident := by rw [State.giveMark_eq]
@[simp] theorem State.giveMark_arb (s : State) (m : Mark) : (s.giveMark m).arb = s.arb := by rw [State.giveMark_eq]
@[simp] theorem State.giveMark_tone (s : State) (m : Mark) : (s.giveMark m).tone = s.tone := by rw [State.giveMark_eq]
@[simp] theorem State.giveMark_verdict (s : State) (m : Mark) : (s.giveMark m).verdict = s.verdict := by rw [State.giveMark_eq]
@[simp] theorem State.giveMark_pending (s : State) (m : Mark) : (s.giveMark m).pending = s.pending := by rw [State.giveMark_eq]

/-- An update of what marks do not read falls before or after a mark alike. -/
theorem State.giveMark_setChan (s : State) (n : LineNo) (c : Channel) (m : Mark) : (s.setChan n c).giveMark m = (s.giveMark m).setChan n c := by
  have h : (s.setChan n c).giveMark m = (s.setChan n c).graft (s.giveMark m) := State.giveMark_graft (s.setChan n c) s m
  rw [h, State.giveMark_eq s m]
  rfl

theorem State.giveMark_setCap (s : State) (n : LineNo) (c : Capture) (m : Mark) : (s.setCap n c).giveMark m = (s.giveMark m).setCap n c := by
  have h : (s.setCap n c).giveMark m = (s.setCap n c).graft (s.giveMark m) := State.giveMark_graft (s.setCap n c) s m
  rw [h, State.giveMark_eq s m]
  rfl

theorem State.giveMark_setPort (s : State) (n : LineNo) (c : Port) (m : Mark) : (s.setPort n c).giveMark m = (s.giveMark m).setPort n c := by
  have h : (s.setPort n c).giveMark m = (s.setPort n c).graft (s.giveMark m) := State.giveMark_graft (s.setPort n c) s m
  rw [h, State.giveMark_eq s m]
  rfl

theorem State.giveMark_setRing (s : State) (n : LineNo) (c : Ring) (m : Mark) : (s.setRing n c).giveMark m = (s.giveMark m).setRing n c := by
  have h : (s.setRing n c).giveMark m = (s.setRing n c).graft (s.giveMark m) := State.giveMark_graft (s.setRing n c) s m
  rw [h, State.giveMark_eq s m]
  rfl

theorem State.giveMark_setIdent (s : State) (n : LineNo) (c : Ident) (m : Mark) : (s.setIdent n c).giveMark m = (s.giveMark m).setIdent n c := by
  have h : (s.setIdent n c).giveMark m = (s.setIdent n c).graft (s.giveMark m) := State.giveMark_graft (s.setIdent n c) s m
  rw [h, State.giveMark_eq s m]
  rfl

theorem State.giveMark_setTone (s : State) (n : LineNo) (c : Tone) (m : Mark) : (s.setTone n c).giveMark m = (s.giveMark m).setTone n c := by
  have h : (s.setTone n c).giveMark m = (s.setTone n c).graft (s.giveMark m) := State.giveMark_graft (s.setTone n c) s m
  rw [h, State.giveMark_eq s m]
  rfl

theorem State.giveMark_setVerdict (s : State) (n : LineNo) (c : Verdict) (m : Mark) : (s.setVerdict n c).giveMark m = (s.giveMark m).setVerdict n c := by
  have h : (s.setVerdict n c).giveMark m = (s.setVerdict n c).graft (s.giveMark m) := State.giveMark_graft (s.setVerdict n c) s m
  rw [h, State.giveMark_eq s m]
  rfl

theorem State.giveMark_undue (s : State) (e : Event) (m : Mark) : (s.undue e).giveMark m = (s.giveMark m).undue e := by
  have h : (s.undue e).giveMark m = (s.undue e).graft (s.giveMark m) := State.giveMark_graft (s.undue e) s m
  rw [h, State.giveMark_eq s m]
  rfl

theorem State.giveMark_now (s : State) (m : Mark) : (s.giveMark m).now = s.now := by
  unfold State.now
  rw [State.giveMark_clock]

/-! ### The forms of memory and of the keeping -/

theorem State.closeSheet_forms (s : State) (hm : s.mem.wf = true) (hk : tableRising s.ex.keeping = true) :
    s.closeSheet.mem.wf = true ∧ tableRising s.closeSheet.ex.keeping = true := by
  unfold State.closeSheet
  cases s.marks.sheet with
  | none => exact ⟨hm, hk⟩
  | some c => exact ⟨Memory.wf_write _ _ _ (Memory.wf_writeList _ _ _ hm), tableRising_drop _ hk⟩

theorem State.writeMark_forms (s : State) (m : Mark) (hm : s.mem.wf = true) (hk : tableRising s.ex.keeping = true) :
    (s.writeMark m).mem.wf = true ∧ tableRising (s.writeMark m).ex.keeping = true := by
  unfold State.writeMark
  cases s.marks.sheet with
  | none => exact ⟨hm, hk⟩
  | some c =>
    dsimp only
    split
    · exact State.closeSheet_forms _ (Memory.wf_writeList _ _ _ hm) hk
    · exact ⟨Memory.wf_writeList _ _ _ hm, hk⟩

theorem State.foldl_writeMark_forms (ms : List Mark) : ∀ s : State, s.mem.wf = true → tableRising s.ex.keeping = true →
    (ms.foldl State.writeMark s).mem.wf = true ∧ tableRising (ms.foldl State.writeMark s).ex.keeping = true := by
  induction ms with
  | nil => intro s hm hk; exact ⟨hm, hk⟩
  | cons m ms ih =>
    intro s hm hk
    have h := s.writeMark_forms m hm hk
    exact ih _ h.1 h.2

theorem State.fillSheet_forms (s : State) (hm : s.mem.wf = true) (hk : tableRising s.ex.keeping = true) :
    s.fillSheet.mem.wf = true ∧ tableRising s.fillSheet.ex.keeping = true := by
  unfold State.fillSheet
  dsimp only
  split
  · have h := s.writeMark_forms s.marksLost hm hk
    exact State.foldl_writeMark_forms _ _ h.1 h.2
  · exact State.foldl_writeMark_forms _ _ hm hk

theorem State.openSheet_forms (s u : State) (h : s.openSheet = some u) (hm : s.mem.wf = true)
    (hk : tableRising s.ex.keeping = true) : u.mem.wf = true ∧ tableRising u.ex.keeping = true := by
  unfold State.openSheet State.claimMarks State.claim at h
  cases hs : s.ex.spare with
  | nil => simp [hs] at h
  | cons c rest =>
    simp only [hs, Nat.zero_lt_succ, if_true, Option.some.injEq] at h
    subst h
    exact ⟨hm, tableRising_put _ _ hk⟩

/-- Giving a mark keeps memory canonical and the keeping's keys rising. -/
theorem State.giveMark_forms (s : State) (m : Mark) (hm : s.mem.wf = true) (hk : tableRising s.ex.keeping = true) :
    (s.giveMark m).mem.wf = true ∧ tableRising (s.giveMark m).ex.keeping = true := by
  unfold State.giveMark
  cases s.marks.sheet with
  | some c => exact s.writeMark_forms m hm hk
  | none =>
    cases h : s.openSheet with
    | some u =>
      have h1 := State.openSheet_forms s u h hm hk
      have h2 := u.fillSheet_forms h1.1 h1.2
      exact State.writeMark_forms _ m h2.1 h2.2
    | none => dsimp only; split <;> exact ⟨hm, hk⟩

end Sys2Proof.Machine
end

