-- ==== Sys2Proof/Laws/Channels.lean ====
section
/-!
SUPPORT. Laws/Channels.lean: what counting, depth control and placement do to a channel record, and what handing frames on changes.
-/
namespace Sys2Proof.Machine

/-! ### Counting touches the counters and the rollover mask alone (R42) -/

@[simp] theorem Channel.bump_state (c : Channel) (k : Counter) : (c.bump k).state = c.state := rfl
@[simp] theorem Channel.bump_mode (c : Channel) (k : Counter) : (c.bump k).mode = c.mode := rfl
@[simp] theorem Channel.bump_cursor (c : Channel) (k : Counter) : (c.bump k).cursor = c.cursor := rfl
@[simp] theorem Channel.bump_list (c : Channel) (k : Counter) : (c.bump k).list = c.list := rfl
@[simp] theorem Channel.bump_j16 (c : Channel) (k : Counter) : (c.bump k).j16 = c.j16 := rfl
@[simp] theorem Channel.bump_prevTransit (c : Channel) (k : Counter) : (c.bump k).prevTransit = c.prevTransit := rfl
@[simp] theorem Channel.bump_target (c : Channel) (k : Counter) : (c.bump k).target = c.target := rfl
@[simp] theorem Channel.bump_steady (c : Channel) (k : Counter) : (c.bump k).steady = c.steady := rfl
@[simp] theorem Channel.bump_hold (c : Channel) (k : Counter) : (c.bump k).hold = c.hold := rfl
@[simp] theorem Channel.bump_excess (c : Channel) (k : Counter) : (c.bump k).excess = c.excess := rfl
@[simp] theorem Channel.bump_trim (c : Channel) (k : Counter) : (c.bump k).trim = c.trim := rfl
@[simp] theorem Channel.bump_lateRun (c : Channel) (k : Counter) : (c.bump k).lateRun = c.lateRun := rfl
@[simp] theorem Channel.bump_earlyRun (c : Channel) (k : Counter) : (c.bump k).earlyRun = c.earlyRun := rfl
@[simp] theorem Channel.bump_conceal (c : Channel) (k : Counter) : (c.bump k).conceal = c.conceal := rfl
@[simp] theorem Channel.bump_last (c : Channel) (k : Counter) : (c.bump k).last = c.last := rfl
@[simp] theorem Channel.bump_params (c : Channel) (k : Counter) : (c.bump k).params = c.params := rfl

/-! ### Depth control touches the excess run and the pending trim alone (R67), settling the cursor and the state besides (R66) -/

@[simp] theorem Channel.depthControl_state (c : Channel) : c.depthControl.state = c.state := by
  unfold Channel.depthControl
  repeat' split
  all_goals rfl

@[simp] theorem Channel.depthControl_mode (c : Channel) : c.depthControl.mode = c.mode := by
  unfold Channel.depthControl
  repeat' split
  all_goals rfl

@[simp] theorem Channel.depthControl_cursor (c : Channel) : c.depthControl.cursor = c.cursor := by
  unfold Channel.depthControl
  repeat' split
  all_goals rfl

@[simp] theorem Channel.depthControl_list (c : Channel) : c.depthControl.list = c.list := by
  unfold Channel.depthControl
  repeat' split
  all_goals rfl

@[simp] theorem Channel.depthControl_j16 (c : Channel) : c.depthControl.j16 = c.j16 := by
  unfold Channel.depthControl
  repeat' split
  all_goals rfl

@[simp] theorem Channel.depthControl_prevTransit (c : Channel) : c.depthControl.prevTransit = c.prevTransit := by
  unfold Channel.depthControl
  repeat' split
  all_goals rfl

@[simp] theorem Channel.depthControl_target (c : Channel) : c.depthControl.target = c.target := by
  unfold Channel.depthControl
  repeat' split
  all_goals rfl

@[simp] theorem Channel.depthControl_steady (c : Channel) : c.depthControl.steady = c.steady := by
  unfold Channel.depthControl
  repeat' split
  all_goals rfl

@[simp] theorem Channel.depthControl_hold (c : Channel) : c.depthControl.hold = c.hold := by
  unfold Channel.depthControl
  repeat' split
  all_goals rfl

@[simp] theorem Channel.depthControl_lateRun (c : Channel) : c.depthControl.lateRun = c.lateRun := by
  unfold Channel.depthControl
  repeat' split
  all_goals rfl

@[simp] theorem Channel.depthControl_earlyRun (c : Channel) : c.depthControl.earlyRun = c.earlyRun := by
  unfold Channel.depthControl
  repeat' split
  all_goals rfl

@[simp] theorem Channel.depthControl_conceal (c : Channel) : c.depthControl.conceal = c.conceal := by
  unfold Channel.depthControl
  repeat' split
  all_goals rfl

@[simp] theorem Channel.depthControl_last (c : Channel) : c.depthControl.last = c.last := by
  unfold Channel.depthControl
  repeat' split
  all_goals rfl

@[simp] theorem Channel.depthControl_params (c : Channel) : c.depthControl.params = c.params := by
  unfold Channel.depthControl
  repeat' split
  all_goals rfl

@[simp] theorem Channel.depthControl_counters (c : Channel) : c.depthControl.counters = c.counters := by
  unfold Channel.depthControl
  repeat' split
  all_goals rfl

@[simp] theorem Channel.depthControl_rollover (c : Channel) : c.depthControl.rollover = c.rollover := by
  unfold Channel.depthControl
  repeat' split
  all_goals rfl

@[simp] theorem Channel.settle_mode (c : Channel) : c.settle.mode = c.mode := by simp [Channel.settle]
@[simp] theorem Channel.settle_list (c : Channel) : c.settle.list = c.list := by simp [Channel.settle]
@[simp] theorem Channel.settle_j16 (c : Channel) : c.settle.j16 = c.j16 := by simp [Channel.settle]
@[simp] theorem Channel.settle_prevTransit (c : Channel) : c.settle.prevTransit = c.prevTransit := by simp [Channel.settle]
@[simp] theorem Channel.settle_target (c : Channel) : c.settle.target = c.target := by simp [Channel.settle]
@[simp] theorem Channel.settle_steady (c : Channel) : c.settle.steady = c.steady := by simp [Channel.settle]
@[simp] theorem Channel.settle_hold (c : Channel) : c.settle.hold = c.hold := by simp [Channel.settle]
@[simp] theorem Channel.settle_lateRun (c : Channel) : c.settle.lateRun = c.lateRun := by simp [Channel.settle]
@[simp] theorem Channel.settle_earlyRun (c : Channel) : c.settle.earlyRun = c.earlyRun := by simp [Channel.settle]
@[simp] theorem Channel.settle_conceal (c : Channel) : c.settle.conceal = c.conceal := by simp [Channel.settle]
@[simp] theorem Channel.settle_last (c : Channel) : c.settle.last = c.last := by simp [Channel.settle]
@[simp] theorem Channel.settle_params (c : Channel) : c.settle.params = c.params := by simp [Channel.settle]
@[simp] theorem Channel.settle_counters (c : Channel) : c.settle.counters = c.counters := by simp [Channel.settle]
@[simp] theorem Channel.settle_rollover (c : Channel) : c.settle.rollover = c.rollover := by simp [Channel.settle]

@[simp] theorem Channel.settle_cursor (c : Channel) : c.settle.cursor = c.cursor + 80 := by simp [Channel.settle]

@[simp] theorem Channel.settle_state (c : Channel) : c.settle.state = if c.list.isEmpty then .gap else c.state := by
  simp [Channel.settle]

/-! ### Placement (R35, R40) -/

/-- An entry put in its place is the only new one. -/
theorem insertEntry_perm (cursor : Word) (e : Entry) (l : List Entry) : (insertEntry cursor e l).Perm (e :: l) := by
  induction l with
  | nil => exact List.Perm.refl _
  | cons x xs ih =>
    unfold insertEntry
    split
    · exact List.Perm.refl _
    · exact (ih.cons x).trans (List.Perm.swap e x xs)

theorem mem_insertEntry {cursor : Word} {e x : Entry} {l : List Entry} : x ∈ insertEntry cursor e l ↔ x = e ∨ x ∈ l := by
  rw [(insertEntry_perm cursor e l).mem_iff, List.mem_cons]

/-- An ascending list stays ascending when an entry of a new distance is put in its place. -/
theorem insertEntry_ascending {cursor : Word} {e : Entry} {l : List Entry}
    (h : l.Pairwise fun a b => rawDistance a.ts cursor < rawDistance b.ts cursor)
    (hn : ∀ x ∈ l, rawDistance x.ts cursor ≠ rawDistance e.ts cursor) :
    (insertEntry cursor e l).Pairwise fun a b => rawDistance a.ts cursor < rawDistance b.ts cursor := by
  induction l with
  | nil => simp [insertEntry]
  | cons x xs ih =>
    have hp := List.pairwise_cons.mp h
    unfold insertEntry
    split
    · rename_i hlt
      refine List.pairwise_cons.mpr ⟨fun y hy => ?_, h⟩
      rcases List.mem_cons.mp hy with rfl | hy
      · exact hlt
      · exact lt_of_lt_of_le hlt (le_of_lt (hp.1 y hy))
    · rename_i hge
      refine List.pairwise_cons.mpr ⟨fun y hy => ?_, ih hp.2 fun y hy => hn y (List.mem_cons_of_mem x hy)⟩
      rcases mem_insertEntry.mp hy with rfl | hy
      · have := hn x (List.mem_cons_self ..)
        omega
      · exact hp.1 y hy

/-! ### Handing frames on touches the port's played frame and the far frames alone (R68, R69) -/

@[simp] theorem State.handFrames_fields (s : State) (ch : LineNo) (out : Frame) (far : Option Frame) :
    (s.handFrames ch out far).clock = s.clock ∧ (s.handFrames ch out far).due = s.due ∧ (s.handFrames ch out far).mem = s.mem ∧
    (s.handFrames ch out far).ex = s.ex ∧ (s.handFrames ch out far).bus = s.bus ∧ (s.handFrames ch out far).chan = s.chan ∧
    (s.handFrames ch out far).cap = s.cap ∧ (s.handFrames ch out far).ring = s.ring ∧ (s.handFrames ch out far).ident = s.ident ∧
    (s.handFrames ch out far).arb = s.arb ∧ (s.handFrames ch out far).tone = s.tone ∧ (s.handFrames ch out far).marks = s.marks ∧
    (s.handFrames ch out far).pending = s.pending := by
  unfold State.handFrames
  cases far <;> simp

end Sys2Proof.Machine
end

