-- ==== Sys2Proof/Laws/Clock.lean ====
section
/-!
SUPPORT. Laws/Clock.lean: what the sample periods inside a sweep, and a tally read, leave as they were.
-/
namespace Sys2Proof.Machine

/-! ### A sample period inside a sweep moves SC, the outputs and inputs of the ports, tones and identities alone (R44, R46, R127) -/

@[simp] theorem State.passSample_mem (s : State) (line : Four Sample) : (s.passSample line).mem = s.mem := by
  unfold State.passSample
  split <;> rfl

@[simp] theorem State.passSample_ex (s : State) (line : Four Sample) : (s.passSample line).ex = s.ex := by
  unfold State.passSample
  split <;> rfl

@[simp] theorem State.passSample_due (s : State) (line : Four Sample) : (s.passSample line).due = s.due := by
  unfold State.passSample
  split <;> rfl

@[simp] theorem State.passSample_bus (s : State) (line : Four Sample) : (s.passSample line).bus = s.bus := by
  unfold State.passSample
  split <;> rfl

@[simp] theorem State.passSample_chan (s : State) (line : Four Sample) : (s.passSample line).chan = s.chan := by
  unfold State.passSample
  split <;> rfl

@[simp] theorem State.passSample_cap (s : State) (line : Four Sample) : (s.passSample line).cap = s.cap := by
  unfold State.passSample
  split <;> rfl

@[simp] theorem State.passSample_ring (s : State) (line : Four Sample) : (s.passSample line).ring = s.ring := by
  unfold State.passSample
  split <;> rfl

@[simp] theorem State.passSample_arb (s : State) (line : Four Sample) : (s.passSample line).arb = s.arb := by
  unfold State.passSample
  split <;> rfl

@[simp] theorem State.passSample_verdict (s : State) (line : Four Sample) : (s.passSample line).verdict = s.verdict := by
  unfold State.passSample
  split <;> rfl

@[simp] theorem State.passSample_marks (s : State) (line : Four Sample) : (s.passSample line).marks = s.marks := by
  unfold State.passSample
  split <;> rfl

@[simp] theorem State.passSample_pending (s : State) (line : Four Sample) : (s.passSample line).pending = s.pending := by
  unfold State.passSample
  split <;> rfl

@[simp] theorem State.passSample_running (s : State) (line : Four Sample) : (s.passSample line).clock.running = s.clock.running := by
  unfold State.passSample
  split <;> rfl

@[simp] theorem State.passSample_work (s : State) (line : Four Sample) : (s.passSample line).clock.work = s.clock.work := by
  unfold State.passSample
  split <;> rfl

/-- A period that passes inside a sweep moves SC by 1, finds every other event of the instant taken, and stays below the next scan instant
(R46). -/
theorem State.passSample_sc (s : State) (line : Four Sample) :
    s.passSample line = s ∨
    (s.passSample line).clock.sc = s.clock.sc + 1 ∧ s.quiet = true ∧ (s.clock.sc + 1).toNat % 8 ≠ 0 ∧ s.clock.phase < 79 := by
  unfold State.passSample
  split
  · exact .inl rfl
  · rename_i h
    refine .inr ⟨rfl, ?_, fun e => h (.inr (.inl e)), by omega⟩
    cases hq : s.quiet with
    | true => rfl
    | false => exact absurd (.inl hq) h

/-- No sample period passes inside a sweep while another event of the instant waits to be taken. -/
theorem State.passSample_waits (s : State) (line : Four Sample) (h : s.quiet = false) : s.passSample line = s := by
  unfold State.passSample
  exact if_pos (.inl h)

/-- Of a port record only the output sample and the gathered input change. -/
theorem State.passSample_port (s : State) (line : Four Sample) (p : LineNo) : ∃ out buf,
    (s.passSample line).port.get p = { s.port.get p with output := out, lineBuf := buf } := by
  unfold State.passSample
  split
  · exact ⟨_, _, rfl⟩
  · exact ⟨_, _, Four.get_mapIdx _ _ _⟩

/-- Of a tone context only the phases change. -/
theorem State.passSample_tone (s : State) (line : Four Sample) (p : LineNo) : ∃ a b,
    (s.passSample line).tone.get p = { s.tone.get p with ph1 := a, ph2 := b } := by
  unfold State.passSample
  split
  · exact ⟨_, _, rfl⟩
  · show ∃ a b, (s.tone.mapIdx fun _ t => t.step).get p = _
    rw [Four.get_mapIdx]
    unfold Tone.step
    split <;> exact ⟨_, _, rfl⟩

/-- Of an identity record only the phase and the samples sent change. -/
theorem State.passSample_ident (s : State) (line : Four Sample) (p : LineNo) : ∃ a n,
    (s.passSample line).ident.get p = { s.ident.get p with phase := a, sent := n } := by
  unfold State.passSample
  split
  · exact ⟨_, _, rfl⟩
  · show ∃ a n, (s.ident.mapIdx fun _ i => i.step).get p = _
    rw [Four.get_mapIdx]
    unfold Ident.step
    split <;> exact ⟨_, _, rfl⟩

/-- What holds of a state and is kept by each sample period of a sweep holds when the periods before a step have passed. -/
theorem State.sweepWork_keeps (P : State → Prop) (hw : ∀ (s : State) w, P s → P { s with clock := { s.clock with work := w } })
    (hp : ∀ (s : State) line, P s → P (s.passSample line)) (s : State) (h : P s) : P s.sweepWork := by
  unfold State.sweepWork
  split
  · exact h
  · rename_i w ws _
    have key : ∀ (l : List (Four Sample)) (u : State), P u → P (l.foldl State.passSample u) := by
      intro l
      induction l with
      | nil => exact fun u hu => hu
      | cons x xs ih => exact fun u hu => ih _ (hp u x hu)
    exact key w _ (hw s ws h)

@[simp] theorem State.sweepWork_mem (s : State) : s.sweepWork.mem = s.mem :=
  s.sweepWork_keeps (fun t => t.mem = s.mem) (fun _ _ h => h) (fun t l h => (t.passSample_mem l).trans h) rfl

@[simp] theorem State.sweepWork_ex (s : State) : s.sweepWork.ex = s.ex :=
  s.sweepWork_keeps (fun t => t.ex = s.ex) (fun _ _ h => h) (fun t l h => (t.passSample_ex l).trans h) rfl

@[simp] theorem State.sweepWork_due (s : State) : s.sweepWork.due = s.due :=
  s.sweepWork_keeps (fun t => t.due = s.due) (fun _ _ h => h) (fun t l h => (t.passSample_due l).trans h) rfl

@[simp] theorem State.sweepWork_bus (s : State) : s.sweepWork.bus = s.bus :=
  s.sweepWork_keeps (fun t => t.bus = s.bus) (fun _ _ h => h) (fun t l h => (t.passSample_bus l).trans h) rfl

@[simp] theorem State.sweepWork_chan (s : State) : s.sweepWork.chan = s.chan :=
  s.sweepWork_keeps (fun t => t.chan = s.chan) (fun _ _ h => h) (fun t l h => (t.passSample_chan l).trans h) rfl

@[simp] theorem State.sweepWork_cap (s : State) : s.sweepWork.cap = s.cap :=
  s.sweepWork_keeps (fun t => t.cap = s.cap) (fun _ _ h => h) (fun t l h => (t.passSample_cap l).trans h) rfl

@[simp] theorem State.sweepWork_ring (s : State) : s.sweepWork.ring = s.ring :=
  s.sweepWork_keeps (fun t => t.ring = s.ring) (fun _ _ h => h) (fun t l h => (t.passSample_ring l).trans h) rfl

@[simp] theorem State.sweepWork_arb (s : State) : s.sweepWork.arb = s.arb :=
  s.sweepWork_keeps (fun t => t.arb = s.arb) (fun _ _ h => h) (fun t l h => (t.passSample_arb l).trans h) rfl

@[simp] theorem State.sweepWork_verdict (s : State) : s.sweepWork.verdict = s.verdict :=
  s.sweepWork_keeps (fun t => t.verdict = s.verdict) (fun _ _ h => h) (fun t l h => (t.passSample_verdict l).trans h) rfl

@[simp] theorem State.sweepWork_marks (s : State) : s.sweepWork.marks = s.marks :=
  s.sweepWork_keeps (fun t => t.marks = s.marks) (fun _ _ h => h) (fun t l h => (t.passSample_marks l).trans h) rfl

@[simp] theorem State.sweepWork_pending (s : State) : s.sweepWork.pending = s.pending :=
  s.sweepWork_keeps (fun t => t.pending = s.pending) (fun _ _ h => h) (fun t l h => (t.passSample_pending l).trans h) rfl

@[simp] theorem State.sweepWork_running (s : State) : s.sweepWork.clock.running = s.clock.running :=
  s.sweepWork_keeps (fun t => t.clock.running = s.clock.running) (fun _ _ h => h) (fun t l h => (t.passSample_running l).trans h) rfl

/-! ### Tally reads -/

/-- Whatever command a tally read is, it changes what the bus returned and, with RST# high, that tally, and nothing else (R6, R186). -/
theorem State.operateTally_eq (s : State) (t : Tally) (after : BitVec 8) :
    s.operateTally t after =
      { s with
        bus := { s.bus with readData := if s.bus.held then 0 else (s.tally t).setWidth 16 }
        ex := if s.bus.held then s.ex else (s.setTally t after).ex } := by
  unfold State.operateTally State.returnData
  cases s.bus.held <;> cases t <;> rfl

end Sys2Proof.Machine
end

