-- ==== Sys2Proof/Laws/Ringing.lean ====
section
/-!
SUPPORT. Laws/Ringing.lean: what the operations of the ring supply and of caller identity can change, and where grants go.
-/
namespace Sys2Proof.Machine

/-! ### The ring supply touches ring contexts, the arbiter and the due events alone (R138, R139) -/

@[simp] theorem State.startBurst_fields (s : State) (p : LineNo) :
    (s.startBurst p).clock = s.clock ∧ (s.startBurst p).due = s.due ∧ (s.startBurst p).mem = s.mem ∧ (s.startBurst p).ex = s.ex ∧
    (s.startBurst p).bus = s.bus ∧ (s.startBurst p).chan = s.chan ∧ (s.startBurst p).cap = s.cap ∧ (s.startBurst p).port = s.port ∧
    (s.startBurst p).ident = s.ident ∧ (s.startBurst p).arb = s.arb ∧ (s.startBurst p).tone = s.tone ∧
    (s.startBurst p).verdict = s.verdict ∧ (s.startBurst p).marks = s.marks ∧ (s.startBurst p).pending = s.pending := by
  simp [State.startBurst]

@[simp] theorem State.setGrant_fields (s : State) (a : Bool) (h : Option LineNo) :
    (s.setGrant a h).clock = s.clock ∧ (s.setGrant a h).due = s.due ∧ (s.setGrant a h).mem = s.mem ∧ (s.setGrant a h).ex = s.ex ∧
    (s.setGrant a h).bus = s.bus ∧ (s.setGrant a h).chan = s.chan ∧ (s.setGrant a h).cap = s.cap ∧ (s.setGrant a h).port = s.port ∧
    (s.setGrant a h).ring = s.ring ∧ (s.setGrant a h).ident = s.ident ∧ (s.setGrant a h).tone = s.tone ∧
    (s.setGrant a h).verdict = s.verdict ∧ (s.setGrant a h).marks = s.marks ∧ (s.setGrant a h).pending = s.pending := by
  simp [State.setGrant]

@[simp] theorem State.setGrant_arb (s : State) (a : Bool) (h : Option LineNo) :
    (s.setGrant a h).arb = if a then { s.arb with grantA := h } else { s.arb with grantB := h } := rfl

@[simp] theorem State.passGrant_fields (s : State) (a : Bool) :
    (s.passGrant a).clock = s.clock ∧ (s.passGrant a).mem = s.mem ∧ (s.passGrant a).ex = s.ex ∧ (s.passGrant a).bus = s.bus ∧
    (s.passGrant a).chan = s.chan ∧ (s.passGrant a).cap = s.cap ∧ (s.passGrant a).port = s.port ∧ (s.passGrant a).ident = s.ident ∧
    (s.passGrant a).tone = s.tone ∧ (s.passGrant a).verdict = s.verdict ∧ (s.passGrant a).marks = s.marks ∧
    (s.passGrant a).pending = s.pending := by
  unfold State.passGrant
  split <;> simp

/-- R139: a released grant becomes free when nobody waits. -/
theorem State.passGrant_nil {s : State} (a : Bool) (h : s.arb.waitList = []) : s.passGrant a = s.setGrant a none := by
  simp [State.passGrant, h]

/-- R139: a released grant passes to the head of the wait list, whose port starts its burst. -/
theorem State.passGrant_cons {s : State} {q : LineNo} {qs : List LineNo} (a : Bool) (h : s.arb.waitList = q :: qs) :
    s.passGrant a = ((({ s with arb := { s.arb with waitList := qs } }).setGrant a (some q)).startBurst q).undue (.tick q) := by
  simp [State.passGrant, h]

/-- The ring context of a port that does not wait at the head is as it was. -/
theorem State.passGrant_ring_of_ne {s : State} {p : LineNo} (a : Bool) (h : s.arb.waitList.head? ≠ some p) :
    (s.passGrant a).ring.get p = s.ring.get p := by
  unfold State.passGrant
  split
  · simp
  · rename_i q qs hq
    have hne : p ≠ q := by simpa [hq, eq_comm] using h
    simp [State.startBurst, Four.get_set, hne]

@[simp] theorem State.releaseGrant_fields (s : State) (p : LineNo) :
    (s.releaseGrant p).clock = s.clock ∧ (s.releaseGrant p).mem = s.mem ∧ (s.releaseGrant p).ex = s.ex ∧
    (s.releaseGrant p).bus = s.bus ∧ (s.releaseGrant p).chan = s.chan ∧ (s.releaseGrant p).cap = s.cap ∧
    (s.releaseGrant p).port = s.port ∧ (s.releaseGrant p).ident = s.ident ∧ (s.releaseGrant p).tone = s.tone ∧
    (s.releaseGrant p).verdict = s.verdict ∧ (s.releaseGrant p).marks = s.marks ∧ (s.releaseGrant p).pending = s.pending := by
  unfold State.releaseGrant
  simp only
  split
  · simp
  · split <;> simp

@[simp] theorem State.askGrant_fields (s : State) (p : LineNo) :
    (s.askGrant p).clock = s.clock ∧ (s.askGrant p).due = s.due ∧ (s.askGrant p).mem = s.mem ∧ (s.askGrant p).ex = s.ex ∧
    (s.askGrant p).bus = s.bus ∧ (s.askGrant p).chan = s.chan ∧ (s.askGrant p).cap = s.cap ∧ (s.askGrant p).port = s.port ∧
    (s.askGrant p).ident = s.ident ∧ (s.askGrant p).tone = s.tone ∧ (s.askGrant p).verdict = s.verdict ∧
    (s.askGrant p).marks = s.marks ∧ (s.askGrant p).pending = s.pending := by
  unfold State.askGrant
  split
  · simp
  · split <;> simp

/-- R138: whoever asks is in the list after it has joined, and nobody else is added or lost. -/
theorem mem_joinWait (f : LineNo → Word) (stamp : Word) (p q : LineNo) (l : List LineNo) :
    q ∈ joinWait f stamp p l ↔ q = p ∨ q ∈ l := by
  induction l with
  | nil => simp [joinWait]
  | cons x xs ih =>
    unfold joinWait
    split
    · simp
    · simp only [List.mem_cons, ih]
      exact or_left_comm

theorem nodup_joinWait (f : LineNo → Word) (stamp : Word) {p : LineNo} {l : List LineNo} (h : l.Nodup) (hp : p ∉ l) :
    (joinWait f stamp p l).Nodup := by
  induction l with
  | nil => simp [joinWait]
  | cons x xs ih =>
    have hx := List.nodup_cons.mp h
    have hpx : p ≠ x ∧ p ∉ xs := by simpa using hp
    unfold joinWait
    split
    · exact List.nodup_cons.mpr ⟨hp, h⟩
    · refine List.nodup_cons.mpr ⟨fun hm => ?_, ih hx.2 hpx.2⟩
      rcases (mem_joinWait f stamp p x xs).mp hm with e | e
      · exact hpx.1 e.symm
      · exact hx.1 e

@[simp] theorem State.leaveSupply_fields (s : State) (p : LineNo) :
    (s.leaveSupply p).clock = s.clock ∧ (s.leaveSupply p).mem = s.mem ∧ (s.leaveSupply p).ex = s.ex ∧
    (s.leaveSupply p).bus = s.bus ∧ (s.leaveSupply p).chan = s.chan ∧ (s.leaveSupply p).cap = s.cap ∧
    (s.leaveSupply p).port = s.port ∧ (s.leaveSupply p).ident = s.ident ∧ (s.leaveSupply p).tone = s.tone ∧
    (s.leaveSupply p).verdict = s.verdict ∧ (s.leaveSupply p).marks = s.marks ∧ (s.leaveSupply p).pending = s.pending := by
  unfold State.leaveSupply
  split <;> simp

/-! ### Identity and the end of a run (R143, R145, R147, R152) -/

@[simp] theorem State.endRing_fields (s : State) (p : LineNo) :
    (s.endRing p).clock = s.clock ∧ (s.endRing p).due = s.due ∧ (s.endRing p).mem = s.mem ∧ (s.endRing p).ex = s.ex ∧
    (s.endRing p).bus = s.bus ∧ (s.endRing p).chan = s.chan ∧ (s.endRing p).cap = s.cap ∧ (s.endRing p).port = s.port ∧
    (s.endRing p).arb = s.arb ∧ (s.endRing p).tone = s.tone ∧ (s.endRing p).verdict = s.verdict ∧ (s.endRing p).marks = s.marks ∧
    (s.endRing p).pending = s.pending := by
  simp [State.endRing]

@[simp] theorem State.dropIdent_fields (s : State) (p : LineNo) :
    (s.dropIdent p).clock = s.clock ∧ (s.dropIdent p).due = s.due ∧ (s.dropIdent p).mem = s.mem ∧ (s.dropIdent p).ex = s.ex ∧
    (s.dropIdent p).bus = s.bus ∧ (s.dropIdent p).chan = s.chan ∧ (s.dropIdent p).cap = s.cap ∧ (s.dropIdent p).port = s.port ∧
    (s.dropIdent p).ring = s.ring ∧ (s.dropIdent p).arb = s.arb ∧ (s.dropIdent p).tone = s.tone ∧
    (s.dropIdent p).verdict = s.verdict ∧ (s.dropIdent p).marks = s.marks ∧ (s.dropIdent p).pending = s.pending := by
  unfold State.dropIdent
  simp only
  split <;> simp

/-- After an abort no identity is PENDING or SENDING (R152). -/
theorem State.abortIdent_status (s : State) (p : LineNo) (cause : Half) :
    ((s.abortIdent p cause).ident.get p).status ≠ .pending ∧ ((s.abortIdent p cause).ident.get p).status ≠ .sending := by
  unfold State.abortIdent
  simp only
  split
  · simp [State.giveLineMark]
  · rename_i h
    simpa using h

@[simp] theorem State.abortIdent_fields (s : State) (p : LineNo) (cause : Half) :
    (s.abortIdent p cause).clock = s.clock ∧ (s.abortIdent p cause).due = s.due ∧ (s.abortIdent p cause).bus = s.bus ∧
    (s.abortIdent p cause).chan = s.chan ∧ (s.abortIdent p cause).cap = s.cap ∧ (s.abortIdent p cause).port = s.port ∧
    (s.abortIdent p cause).ring = s.ring ∧ (s.abortIdent p cause).arb = s.arb ∧ (s.abortIdent p cause).tone = s.tone ∧
    (s.abortIdent p cause).verdict = s.verdict ∧ (s.abortIdent p cause).pending = s.pending := by
  unfold State.abortIdent
  simp only
  split <;> simp [State.giveLineMark]

end Sys2Proof.Machine
end

