-- ==== Sys2Proof/Tests/Slice0.lean ====
section
/-!
SUPPORT. Tests/Slice0.lean: the smoke test of WellFormed, small tests of one step each, and a witness for the hypotheses of every
obligation that has any. Expected values come from the manual's rules and worked examples.
-/
set_option Elab.async false

namespace Sys2Proof.Tests

open Sys2Proof Sys2Proof.Machine

/-! ### WellFormed -/

def low : Lanes := { low := true, high := false }
def high : Lanes := { low := false, high := true }
def both : Lanes := { low := true, high := true }

theorem test_wellFormed_refuses :
    (Instr.powerOnReset (some [(65536, 1)])).wellFormed = false ∧
    (Instr.softReset high 2).wellFormed = false ∧ (Instr.softReset low 1).wellFormed = false ∧
    (Instr.run high 1).wellFormed = false ∧ (Instr.run low 2).wellFormed = false ∧
    (Instr.guardClear high 4).wellFormed = false ∧ (Instr.guardClear low 3).wellFormed = false ∧
    (Instr.windowWriteDiscarded runctlHalf both 0).wellFormed = false ∧
    (Instr.windowWriteDiscarded attnctlHalf both 0).wellFormed = false ∧
    (Instr.sweep [List.replicate 4 (.all 0), List.replicate 4 (.all 0)] []).wellFormed = false := by decide

theorem test_wellFormed_accepts :
    (Instr.powerOnReset (some [(65535, 1)])).wellFormed = true ∧ (Instr.softReset low 2).wellFormed = true ∧
    (Instr.run both 1).wellFormed = true ∧ (Instr.guardClear low 4).wellFormed = true ∧
    (Instr.windowWriteDiscarded 8 both 0).wellFormed = true ∧ 
    (Instr.sweep [List.replicate 4 (.all 0), List.replicate 3 (.all 0)] []).wellFormed = true := by decide

theorem test_no_word_spells_a_command : decodeTableWord 16 0 = none ∧ State.reset.withFetchWord 16 7 = State.reset := by decide +kernel

/-! ### States to start from -/

/-- The state a command leaves. -/
def after (c : Instr) (s : State) : State :=
  match exec c s with
  | .next t => t
  | _ => s

/-- RUNNING, at a boundary instant that is a scan instant, every event due. -/
def go : State :=
  { State.reset with
    clock := { Clock.reset with running := true, sc := 80, boundaries := 1, boundarySc := 80 }
    due := { sweep := true, frame := .all true, capture := .all true, verdict := .all true, tick := .all true, scan := .all true,
             timer := .all true, markWriter := true } }

/-- Bytes placed in memory. -/
def poke (s : State) (a : Nat) (bs : List Byte) : State := { s with mem := s.mem.writeList a bs }

/-- A cell posted: its stamp, and one request in POSTS. -/
def post (s : State) (n : CellNo) (stamp : Byte) : State :=
  { s.putByte n.val stamp with ex := { s.ex with posts := s.ex.posts + 1 } }

/-- Spare cells in the stock. -/
def stock (s : State) (cells : List CellNo) : State :=
  { s with ex := { s.ex with spare := cells, keeping := cells.map fun n => (n.val, { role := .spare, clash := false }) } }

/-- A parcel cell kept for a channel with a reference count. -/
def keep (s : State) (n : CellNo) (ch : LineNo) (refs : Nat) : State := s.setKept n { role := .parcel ch refs, clash := false }

/-- An entry of cell 5, block 0, in µ-law. -/
def entry (ts : Word) : Entry := { ts := ts, cell := 5, block := 0, coding := .mu, origin := .primary }

/-- Channel 1 in a state and mode, cursor 800. -/
def playing (st : ChanState) (m : Mode) (es : List Entry) : Channel :=
  { Channel.reset with
    state := st, mode := m, cursor := 800, list := es, steady := match m with
      | .speech => none
      | .steady => some 4 }

/-- A cadence of 100 ticks on and 200 off, at its first half. -/
def cadence : CadenceRun := { once := false, offFirst := false, durations := [100, 200, 0, 0, 0, 0, 0, 0], pos := 0, count := 100 }

/-- Cadence record 0 and tone record 0 placed in memory: 100 on, 200 off; 440 Hz at 1000. -/
def tables (s : State) : State :=
  poke (poke s 0x100 (0 :: List.replicate 15 0 ++ [100, 0, 200, 0])) 0x300 [0xB8, 0x01, 0, 0, 0xE8, 0x03, 0, 0, 0]

/-- Port 2 RINGING in a sub-phase, holding grant A when it is BURST. -/
def ringing (sub : SubPhase) (run : CadenceRun) : State :=
  let s := (go.setPort 2 { Port.reset with state := .ringing }).setRing 2 { Ring.reset with sub := sub, run := some run }
  { s with arb := { s.arb with grantA := if sub = .burst then some 2 else none } }

/-- Port 3 OFFHOOK. -/
def talking (p : Port) : State := go.setPort 3 { p with state := .offhook, filtered := true }

/-! ### Resets and the control window -/

theorem test_power_on_reset_takes_the_ram : (after (.powerOnReset (some [(0x3FF, 7), (0xFFFF, 9)])) go).byteAt 0xFFFF = 9 ∧
    (after (.powerOnReset (some [(0x3FF, 7)])) go).clock.running = false := by decide +kernel

theorem test_rst_low_reads_zero_and_discards_writes : let s := after (.powerOnReset none) go
    s.busRead true 8 = 0 ∧ s.busRead false 0x40 = 0 ∧ after (.run both 1) s = s ∧ after (.hostMemoryWrite 0x40 both 1) s = s ∧
    after (.add .posts) s = s ∧ (after (.powerOnReset (some [(0x80, 7)])) s).busRead true 8 = 0x3A41 := by decide +kernel

theorem test_soft_reset_prevails_and_keeps_memory : let t := after (.softReset low 7) (poke go 0x80 [1])
    t.clock.running = false ∧ t.byteAt 0x80 = 1 ∧ t.due = Due.reset := by decide +kernel

theorem test_run_starts_at_zero : (after (.run both 1) State.reset).clock.running = true ∧
    (after (.run both 1) go).clock.sc = 80 := by decide +kernel

theorem test_guard_clear_keeps_the_address :
    let s := { go with ex := { go.ex with guard := true, guardAddr := 0x1234 } }
    (after (.guardClear low 4) s).ex.guard = false ∧ (after (.guardClear low 4) s).ex.guardAddr = 0x1234 := by decide +kernel

theorem test_attnctl_reads_back : (after (.attnctlWrite low 0xFFFF) go).attnctl = 3 ∧
    (after (.attnctlWrite high 0xFFFF) go).attnctl = 0 := by decide +kernel

theorem test_tallies_hold_at_their_ends :
    let s := { go with ex := { go.ex with posts := 255, ready := 0 } }
    (after (.add .posts) s).ex.posts = 255 ∧ (after (.add .posts) s).bus.readData = 0xFF ∧ (after (.take .ready) s).ex.ready = 0 ∧
    (after (.take .posts) s).ex.posts = 254 ∧ (after (.clear .posts) s).ex.posts = 0 ∧ after (.peek .ready) s = s := by decide +kernel

theorem test_window_reads_are_the_tally_operations :
    windowReadCommand 1 = some (.add .posts) ∧ windowReadCommand 7 = some (.clear .ready) ∧ windowReadCommand 8 = none := by decide +kernel

theorem test_ident_is_3A41 : State.reset.busRead true 8 = 0x3A41 ∧ after (.windowWriteDiscarded 8 both 0xFFFF) go = go := by
  decide +kernel

theorem test_host_write_takes_its_lanes : let t := after (.hostMemoryWrite 0x40 high 0xABCD) go
    t.byteAt 0x80 = 0 ∧ t.byteAt 0x81 = 0xAB := by decide +kernel

theorem test_write_to_a_kept_cell_is_guarded : let t := after (.hostMemoryWrite 0x200 both 1) (keep go 0 1 1)
    t.byteAt 0x400 = 0 ∧ t.ex.guard = true ∧ t.ex.guardAddr = 0x400 := by decide +kernel

/-! ### Exchange, channels and marks -/

theorem test_sweep_keeps_a_granted_cell : let t := after (.sweep [] []) (post go 125 0x13)
    t.ex.spare = [125] ∧ t.byteAt 125 = 0x21 ∧ t.ex.posts = 0 ∧ t.ex.ready = 0 := by decide +kernel

theorem test_sweep_refuses_a_parcel_of_a_closed_channel : let t := after (.sweep [] []) (post (poke go 0x400 [1, 1, 0, 1]) 0 0x11)
    t.byteAt 0 = 0x3F ∧ t.cellByte 0 16 = 0x02 ∧ t.ex.ready = 1 := by decide +kernel

/-- Cell 7 holding a sheet of one RING_STOP order to port 2, posted, while identity is being sent on it. -/
def stopping : State :=
  let s := (go.setPort 2 { Port.reset with state := .ringing }).setRing 2 { Ring.reset with sub := .ident, run := some cadence }
  post (poke (poke (s.setIdent 2 { Ident.reset with status := .sending, buffer := [0x80, 0x80], sent := 18, phase := 0x4000, hold := true })
    (cellAddr 7 0) [1]) (cellAddr 7 32) [6, 2]) 7 0x12

/-- A state whose sweep is due and nothing else. -/
def calm (s : State) : State := { s with due := { Due.reset with sweep := true } }

/-- R46, R127, R152: an order that runs 3 samples after the expiry leaves the 3 samples before it as they were: 21 samples sent, 3 bits. -/
theorem test_samples_pass_inside_a_sweep : let t := after (.sweep [List.replicate 3 (.all 0)] []) (calm stopping)
    t.clock.sc = 83 ∧ t.marks.queue.map (fun m => (m.kind, m.time, m.detail32)) = [(.identAborted, 83, 3)] ∧
    (t.port.get 2).lineBuf.length = 3 ∧ (t.port.get 2).output ≠ 0 ∧ ((after (.samplePeriod (.all 0)) t).port.get 2).output = 0 := by
  decide +kernel

/-- R150, R160, log 5: no sample period passes inside a sweep before the cadence tick of the instant, and one does after it. -/
theorem test_a_tick_comes_before_the_samples :
    let s := calm stopping
    let late := { s with due := { s.due with tick := .all true } }
    let ticks := [0, 1, 2, 3].map fun p : LineNo => ((0 : CellNo), PartEvent.cadenceTick p)
    (after (.sweep [List.replicate 3 (.all 0)] []) late).clock.sc = 80 ∧
    (after (.sweep [List.replicate 3 (.all 0)] ticks) late).clock.sc = 83 := by decide +kernel

theorem test_frame_boundary_plays_the_entry_at_the_cursor :
    let s := keep ((poke go (cellAddr 5 32) (List.replicate 80 0x80)).setChan 1 (playing .flowing .speech [entry 800])) 5 1 1
    let t := after (.frameBoundary 1) s
    (t.port.get 1).played = List.replicate 80 8031 ∧ (t.chan.get 1).cursor = 880 ∧ (t.chan.get 1).state = .gap ∧ t.byteAt 5 = 0x33 := by
  decide +kernel

theorem test_far_frame_of_silence_stores_its_boundary :
    let s := go.setVerdict 0 { Verdict.reset with farFrames := [{ boundary := 1, sc := 80, afresh := false, samples := silence }] }
    ((after (.farFrame 0) s).verdict.get 0).lastFar = some 1 ∧ ((after (.farFrame 0) s).verdict.get 0).farFrames = [] := by
  decide +kernel

theorem test_far_runs_do_not_outlive_a_reopening : let v := { Verdict.reset with farAnswer := { count := 3, fired := false }, lastFar := some 0 }
    let s := fun afresh => go.setVerdict 0 { v with farFrames := [{ boundary := 1, sc := 80, afresh := afresh, samples := silence }] }
    ((s false).verdict.get 0).followFar { boundary := 1, sc := 80, afresh := false, samples := silence } = (s false).verdict.get 0 ∧
    (((s true).verdict.get 0).followFar { boundary := 1, sc := 80, afresh := true, samples := silence }).farAnswer.count = 0 := by
  decide +kernel

/-- 80 samples of a tone of increment 17,203 (2,100 Hz) and amplitude 1000. -/
def fax : Frame := (List.range 80).map fun i => sat (sineSample 1000 (BitVec.ofNat 16 (17203 * i)))

/-- R159, R162: a tone of the synthesis is a sum of steady sine waves, of 2,100.0 Hz at 1000, and not of 2,101 Hz or at 1001; no other
wave so near in frequency or amplitude is a tone of the synthesis or rounds to its samples. -/
theorem test_a_tone_is_a_steady_sum :
    let w := fun step amp : Nat => ({ step := step * 2 ^ 48, amp := amp * 2 ^ 48, phase := 0 } : Wave)
    sumOf [w 17203 1000] fax { tone := true, coding := none } = true ∧ sumRank [w 17203 1000] fax = 8 ∧ steadySum [w 17211 1000] fax = false ∧
    steadySum [w 17203 1001] fax = false ∧ steadySum [w 17203 999] fax = false ∧
    steadySum [{ w 17203 1000 with amp := 2001 * 2 ^ 47 }] fax = false ∧
    waveComponent (w 17203 1000) = { freq := 21000, amp := 1000 } := by decide +kernel

/-- The tone as a wave. -/
def faxWave : Wave := { step := 17203 * 2 ^ 48, amp := 1000 * 2 ^ 48, phase := 0 }

/-- R69, R162: the tone decoded from a µ-law block is a sum of the same steady wave. -/
theorem test_a_mu_law_tone_is_a_steady_sum :
    sumOf [faxWave] (fax.map fun x => decodeMu (encodeMu x)) { tone := true, coding := some .mu } = true := by decide +kernel

/-- R69, R162: and so is the tone decoded from an A-law block. -/
theorem test_an_a_law_tone_is_a_steady_sum :
    sumOf [faxWave] (fax.map fun x => decodeA (encodeA x)) { tone := true, coding := some .a } = true := by decide +kernel

/-- R162, log 6: a constant is as strong as its samples; a wave of 10 Hz near its zero crossing is a wave as any other. -/
theorem test_a_constant_is_as_strong_as_its_samples :
    waveShows { step := 0, amp := 8191 * 2 ^ 48, phase := 0 } = false ∧
    waveShows { step := 0, amp := 100 * 2 ^ 48, phase := 2 ^ 62 } = true ∧
    waveShows { step := 82 * 2 ^ 48, amp := 1000 * 2 ^ 48, phase := 0 } = true := by decide +kernel

theorem test_capture_sends_a_parcel_of_one_frame :
    let c := { Capture.reset with state := .sending, nextSeq := 0x1234, tsCounter := 0xA0 }
    let t := after (.captureEvent 1) (((stock go [7, 9]).setChan 1 (playing .waiting .speech [])).setCap 1 c)
    t.byteAt 7 = 0x31 ∧ t.cellWord 7 4 = 0xA0 ∧ t.cellHalf 7 8 = 0x1234 ∧ t.cellByte 7 32 = 0xFF ∧ t.ex.spare = [9] := by decide +kernel

theorem test_line_verdict_of_silence_clears_the_candidate :
    let s := (talking { Port.reset with lineFrame := silence }).setVerdict 3 { Verdict.reset with candidate := some 5, candRun := 3 }
    ((after (.lineVerdict 3) s).verdict.get 3).candidate = none := by decide +kernel

theorem test_trigger_holds_for_the_margin :
    let s := (go.setVerdict 1 { Verdict.reset with triggers := [.toneFar] }).setChan 1
      { playing .flowing .speech [] with params := { OpenParams.reset with autoSteady := true, steadyMargin := 3 } }
    let t := after (.toneTrigger 1 .toneFar) s
    (t.chan.get 1).steady = some 5 ∧ (t.chan.get 1).hold = 3 ∧
    t.marks.queue.map (fun m => (m.detail16, m.detail32)) = [(2, 0x30005)] := by decide +kernel

theorem test_mark_writer_closes_its_sheet :
    let s := { keep go 7 0 0 with marks := { sheet := some 7, count := 2, queue := [], lost := 0 } }
    let t := after .markWriterBoundary s
    t.cellByte 7 0 = 2 ∧ t.byteAt 7 = 0x32 ∧ t.marks.sheet = none ∧ t.ex.ready = 1 := by decide +kernel

/-! ### Lines -/

theorem test_scan_seizes : let t := after (.lineScan 3 true false) (go.setPort 3 { Port.reset with state := .idle, differing := 7 })
    (t.port.get 3).state = .offhook ∧ t.marks.queue.map Mark.kind = [.seized] := by decide +kernel

theorem test_scan_counts_a_pulse :
    let r := { Port.reset with state := .offhook, filter := 0, breakCount := some 60, pulses := 15 }
    let t := after (.lineScan 3 true false) (go.setPort 3 r)
    (t.port.get 3).pulses = 15 ∧ (t.port.get 3).gapCount = some 0 := by decide +kernel

theorem test_timer_clears_the_line : let s := talking { Port.reset with breakCount := some 799, pulses := 3 }
    let t := after (.portTimerExpiry 3) s
    (t.port.get 3).state = .idle ∧ t.marks.queue.map (fun m => (m.kind, m.detail16, m.detail32)) = [(.cleared, 3, 800)] := by decide +kernel

theorem test_cleared_is_that_expiry : let s := talking { Port.reset with breakCount := some 799 }
    after (.cleared 3) s = after (.portTimerExpiry 3) s ∧ after (.cleared 3) (talking { Port.reset with breakCount := some 798 }) =
      talking { Port.reset with breakCount := some 798 } := by decide +kernel

theorem test_digit_gap_reports_ten_as_zero :
    let t := after (.digitGapExpiry 3) (talking { Port.reset with gapCount := some 299, pulses := 10 })
    t.marks.queue.map (fun m => (m.kind, m.detail16, m.detail32)) = [(.digitPulse, 0, 10)] := by decide +kernel

theorem test_tick_counts_a_rest : let s := ringing .rest { cadence with pos := 1, count := 200 }
    ((after (.cadenceTick 2) s).ring.get 2).run = some { cadence with pos := 1, count := 199 } := by decide +kernel

theorem test_advance_ends_a_rest_in_a_burst : let t := after (.cadenceAdvance 2) (ringing .rest { cadence with pos := 1, count := 1 })
    (t.ring.get 2).sub = .burst ∧ t.arb.grantA = some 2 ∧ (t.ring.get 2).run = some cadence := by decide +kernel

/-- Ports 0 and 1 in BURST, port 2 waiting. -/
def waiting : State :=
  let r := fun sub : SubPhase => { Ring.reset with sub := sub, run := some { cadence with count := 1 } }
  let p := { Port.reset with state := .ringing }
  { go with
    port := ⟨p, p, p, Port.reset⟩, ring := ⟨r .burst, r .burst, r .waitGrant, Ring.reset⟩
    arb := { grantA := some 0, grantB := some 1, waitList := [2] } }

theorem test_grant_passes_on : let t := after (.grantPass 0) waiting
    t.arb.grantA = some 2 ∧ t.arb.waitList = [] ∧ (t.ring.get 2).sub = .burst ∧ (t.ring.get 0).sub = .rest ∧
    (t.ring.get 2).run = some cadence := by decide +kernel

theorem test_drive_toggles_at_N_plus_one :
    let s := fun d => (ringing .burst cadence).setRing 2 { Ring.reset with sub := .burst, run := some cadence, drive := d }
    ((after (.ringDriveToggle 2) (s 25)).ring.get 2).level = true ∧ after (.ringDriveToggle 2) (s 24) = s 24 := by decide +kernel

/-- Port 2 in a first rest with identity in a status. -/
def identifying (sub : SubPhase) (i : Ident) : State := (ringing sub { cadence with pos := 1, count := 200 }).setIdent 2 i

theorem test_ident_start_counts_the_stream :
    let t := after (.identStart 2) (identifying .rest { Ident.reset with status := .pending, buffer := [0x80, 0x80], delay := 1, hold := true })
    (t.ident.get 2).status = .sending ∧ (t.ident.get 2).send = 42 ∧ (t.ring.get 2).sub = .ident := by decide +kernel

theorem test_ident_sent_gives_its_mark :
    let i := { Ident.reset with status := .sending, buffer := [0x80, 0x80], send := 1, hold := true }
    let t := after (.identSent 2) (identifying .ident i)
    (t.ident.get 2).status = .tail ∧ (t.ident.get 2).tail = 20 ∧
    t.marks.queue.map (fun m => (m.kind, m.detail16, m.detail32)) = [(.identSent, 1, 500)] := by decide +kernel

theorem test_ident_tail_end_lifts_the_hold :
    let t := after (.identTailEnd 2) (identifying .rest { Ident.reset with status := .tail, tail := 1, hold := true })
    (t.ident.get 2).status = .sent ∧ (t.ident.get 2).hold = false := by decide +kernel

theorem test_sample_period_reaches_the_boundary :
    let s := { go with due := Due.reset, clock := { go.clock with phase := 79, sc := 159 } }
    let t := after (.samplePeriod (.all 5)) s
    t.clock.phase = 0 ∧ t.clock.boundaries = 2 ∧ t.due.sweep = true ∧ t.due.frame = .all true ∧ t.due.tick = .all false := by
  decide +kernel

theorem test_step_takes_the_front : let s := { go with pending := [.add .ready, .add .posts] }
    (match step s with
      | .next t => some (t.ex.ready, t.ex.posts, t.pending)
      | _ => none) = some (1, 0, [.add .posts]) := by decide +kernel

/-! ### Witnesses: states and operands that meet the hypotheses of each obligation, clause by clause -/

theorem witness_StepTakesTheFrontCommand : State.reset.pending = [] := by decide

/-- The part with RST# low. -/
def held : State := after (.powerOnReset none) go

theorem witness_PowerOnResetLeavesWhatTheRamHolds : (65535 : Nat) < 65536 ∧ held.bus.held = true := by decide +kernel

theorem witness_RunctlWriteActsOnItsFields :
    Instr.run low 1 = .run low 1 ∧ high.low = false ∧ held.bus.held = true ∧ State.reset.bus.held = false ∧ go.bus.held = false ∧
    ((0 : Half).getLsbD 0 = false ∧ (0 : Half).getLsbD 1 = false ∧ (0 : Half).getLsbD 2 = false) ∧
    (low.low = true ∧ (7 : Half).getLsbD 1 = true) ∧
    (low.low = true ∧ (5 : Half).getLsbD 1 = false ∧ (5 : Half).getLsbD 0 = true ∧ State.reset.clock.running = false) ∧
    (low.low = true ∧ (4 : Half).getLsbD 1 = false ∧ ((4 : Half).getLsbD 0 = false ∨ go.clock.running = true)) := by decide +kernel

theorem witness_AttnctlWriteSetsTheEnables : held.bus.held = true ∧ go.bus.held = false := by decide +kernel

theorem witness_ControlWindowDecodesItsAddresses :
    (3 : BitVec 15).toNat < 4 ∧ (4 ≤ (4 : BitVec 15).toNat ∧ (7 : BitVec 15).toNat < 8) ∧ 12 ≤ (12 : BitVec 15).toNat ∧
    ((8 : BitVec 15).toNat ≠ 9 ∧ (11 : BitVec 15).toNat ≠ 10) ∧ go.bus.held = false ∧ 8 ≤ (8 : BitVec 15).toNat ∧
    windowReadCommand 7 = some (.clear .ready) := by decide +kernel

theorem witness_TallyReadsReturnAndOperate : held.bus.held = true ∧ go.bus.held = false := by decide +kernel

theorem witness_HostWriteIsStoredOrGuarded : held.bus.held = true ∧ go.bus.held = false ∧ (keep go 125 0 1).bus.held = false ∧
    go.mem.wf = true ∧ 2 * (511 : BitVec 15).toNat < 0x400 ∧
    go.isKept ((2 * (32767 : BitVec 15).toNat - 0x400) / 512) = false ∧
    (0x400 + 512 * (125 : CellNo).val ≤ 2 * (32767 : BitVec 15).toNat ∧
      2 * (32767 : BitVec 15).toNat ≤ 0x400 + 512 * (125 : CellNo).val + 511 ∧ high.high = true ∧
      (keep go 125 0 1).isKept 125 = true ∧ (keep go 125 0 1).ex.guard = false) ∧
    (0x400 + 512 * (0 : CellNo).val ≤ 2 * (512 : BitVec 15).toNat ∧ 2 * (512 : BitVec 15).toNat ≤ 0x400 + 512 * (0 : CellNo).val + 511 ∧
      low.low = true ∧ (keep { go with ex := { go.ex with guard := true } } 0 0 1).isKept 0 = true ∧
      (keep { go with ex := { go.ex with guard := true } } 0 0 1).ex.guard = true) := by decide +kernel

theorem witness_HaltedPartTakesNoEvent :
    (partEvent .markWriterBoundary = true ∧ State.reset.clock.running = false) ∧
    (go.clock.running = true ∧ (after (.softReset low 2) go).clock.running = false) ∧
    (State.reset.clock.running = false ∧ (after (.run low 1) State.reset).clock.running = true) ∧
    ((Instr.softReset low 2).wellFormed = true ∧ (Instr.run low 1).wellFormed = true ∧ (Instr.windowWriteDiscarded 8 low 2).wellFormed = true) ∧
    (held.bus.held = true ∧ held.clock.running = false) := by decide +kernel

/-- A kept cell, 5, on which the host has posted, having clashed before or not. -/
def clashed (before : Bool) : State :=
  (post go 5 0x11).setKept 5 { role := .parcel 1 1, clash := before }

theorem witness_IdleSweepClearsPosts :
    (go.canTake .sweep = true ∧ go.ex.posts = 0) ∧
    (∀ before, (clashed before).canTake .sweep = true ∧ (clashed before).ex.posts ≠ 0 ∧ (clashed before).mem.wf = true ∧
      tableRising (clashed before).ex.keeping = true ∧
      ∀ n : CellNo, isPosting ((clashed before).stamp n) = true → (clashed before).isKept n.val = true) ∧
    (∀ n : CellNo, isPosting ((clashed true).stamp n) = true → ((clashed true).keptAt n.val).map Kept.clash = some true) ∧
    (isPosting ((clashed false).stamp 5) = true ∧ (clashed false).keptAt 5 = some { role := .parcel 1 1, clash := false } ∧
      ∀ m : CellNo, m ≠ 5 → isPosting ((clashed false).stamp m) = false) := by decide +kernel

/-- Cell 7 holding a parcel header (its first 16 bytes), channel 1 open. -/
def parcel (bs : List Byte) : State := poke (go.setChan 1 (playing .flowing .speech [])) (cellAddr 7 0) bs

/-- Cell 125 granted, with 31 or 32 spare cells in the stock. -/
def granted (spares : Nat) : State := post (stock go ((List.finRange 126).take spares)) 125 0x13

theorem witness_SweepTakesThePostedCell : ∀ k, k < 2 →
    let s := granted (31 + k)
    s.canTake .sweep = true ∧ s.ex.posts ≠ 0 ∧ s.mem.wf = true ∧ tableRising s.ex.keeping = true ∧ s.stamp 125 = 0x13 ∧
    isPosting (s.stamp 125) = true ∧ s.isKept 125 = false ∧ (∀ m : CellNo, m ≠ 125 → isPosting (s.stamp m) = false) ∧
    s.ex.spare.length = 31 + k ∧ ((parcel [3]).cellByte 7 0).toNat = (3 : LineNo).val ∧
    (let two := post s 124 0x13
      let t := ({ two with due := two.due.without .sweep }).takeCell 124 0x13
      isPosting (two.stamp 124) = true ∧ two.isKept 124 = false ∧
      (∀ m : CellNo, m ≠ 124 → m ≠ 125 → isPosting (two.stamp m) = false) ∧ isPosting (t.stamp 125) = true ∧ t.isKept 125 = false) := by
  decide +kernel

theorem witness_SweepLeavesNoRequestBehind : let s := granted 31
    s.canTake .sweep = true ∧ s.ex.posts ≠ 0 ∧ s.mem.wf = true ∧ tableRising s.ex.keeping = true ∧ s.clock.sc.toNat % 8 = 0 := by
  decide +kernel

theorem witness_ParcelValidationOrder :
    3 < ((parcel [4]).parcelHeader 7).channel ∧
    (((parcel [3]).parcelHeader 7).channel = (3 : LineNo).val ∧ ((parcel [3]).chan.get 3).state = .closed) ∧
    (((parcel [1, 4]).parcelHeader 7).channel = (1 : LineNo).val ∧ ((parcel [1, 4]).chan.get 1).state ≠ .closed ∧
      ((parcel [1, 4]).parcelHeader 7).coding = none) ∧
    (((parcel [1, 1, 0, 0]).parcelHeader 7).coding = some .mu ∧ ((parcel [1, 1, 0, 0]).parcelHeader 7).primary = 0) ∧
    (((parcel [1, 3, 0, 4]).parcelHeader 7).coding = some .lin16 ∧
      Coding.lin16.capacity < ((parcel [1, 3, 0, 4]).parcelHeader 7).primary + ((parcel [1, 3, 0, 4]).parcelHeader 7).redundant) ∧
    (let h := (parcel [1, 1, 0, 5, 0, 0, 0, 0, 0, 0, 1, 16]).parcelHeader 7;
      h.primary ≠ 0 ∧ h.primary + h.redundant ≤ Coding.mu.capacity ∧ ∃ l ∈ h.lags, l = 0 ∨ 15 < l) ∧
    (let h := (parcel [1, 1, 0, 5, 0, 0, 0, 0, 0, 0, 1, 15]).parcelHeader 7;
      h.primary ≠ 0 ∧ h.primary + h.redundant ≤ Coding.mu.capacity ∧ ∀ l ∈ h.lags, l ≠ 0 ∧ l ≤ 15) ∧
    (parcel [4]).mem.wf = true ∧ tableRising (parcel [4]).ex.keeping = true := by decide +kernel

/-- Cell 7 holding a sheet of one entry whose first four bytes are given. -/
def sheetOf (count : Byte) (entry : List Byte) : State := poke (poke go (cellAddr 7 0) [count]) (cellAddr 7 32) entry

theorem witness_SheetsRunTheirOrders :
    ((sheetOf 0 []).cellByte 7 0).toNat = 0 ∧ 16 < ((sheetOf 17 []).cellByte 7 0).toNat ∧
    1 ≤ ((sheetOf 16 []).cellByte 7 0).toNat ∧ ((sheetOf 16 []).cellByte 7 0).toNat ≤ 16 ∧
    (((sheetOf 1 [13, 4]).cellByte 7 32).toNat = 13 ∧ 3 < ((sheetOf 1 [13, 4]).cellByte 7 33).toNat) ∧
    14 < ((sheetOf 1 [15]).cellByte 7 32).toNat ∧ ((sheetOf 1 [0]).cellByte 7 32).toNat = 0 ∧
    ((sheetOf 1 [14, 4]).cellByte 7 32).toNat = 14 ∧
    ∀ code : Fin 14, 1 ≤ code.val → ((sheetOf 1 [BitVec.ofNat 8 code.val, 3]).cellByte 7 32).toNat = code.val ∧
      ((sheetOf 1 [BitVec.ofNat 8 code.val, 3]).cellByte 7 33).toNat = (3 : LineNo).val := by decide +kernel

theorem witness_RoundingMovesToTheGrid :
    ((0 : Int) % 80 = 0 ∧ 1 ≤ (40 : Int) % 80 ∧ (40 : Int) % 80 ≤ 40 ∧ 41 ≤ (41 : Int) % 80) ∧
    (((-40 : Word) - 0).toInt ≤ -40 ∧ -39 ≤ ((-39 : Word) - 0).toInt ∧ ((40 : Word) - 0).toInt ≤ 40) ∧
    ((1 : Int) ≤ 31 ∧ 80 * 31 - 39 ≤ ((2520 : Word) - 0).toInt ∧ ((2520 : Word) - 0).toInt ≤ 80 * 31 + 40) ∧
    2521 ≤ ((2521 : Word) - 0).toInt := by decide

theorem witness_JitterAndTargetFollowTheirFormulas :
    ((64000 : Nat) ≤ 64000 ∧ (4000 : Nat) ≤ 4000) ∧ (8 : Nat) ≤ 8 ∧ (7 : Nat) ≤ 7 ∧ 0 < (64000 : Nat) ∧
    OpenParams.reset.minFrames ≤ OpenParams.reset.maxFrames ∧
    ((2 : Nat) ≤ 30 ∧ (1 : Nat) < 2 ∧ (2 : Nat) ≤ 2 ∧ (30 : Nat) ≤ 30 ∧ 30 < (31 : Nat)) := by decide

/-- A header of one or two primary blocks at a timestamp. -/
def header (primary : Nat) (ts : Word) (spurt : Bool) : ParcelHeader :=
  { channel := 1, coding := some .mu, spurt := spurt, ts := ts, primary := primary, redundant := 0, lags := [] }

theorem witness_RunsFollowTheTrialClassification :
    (header 1 0 false).primary ≠ 0 ∧ (playing .waiting .speech []).state = .waiting ∧
    ((playing .gap .speech []).state = .gap ∧ (playing .gap .speech []).mode = .speech ∧ (header 1 0 true).spurt = true) ∧
    (let c := { playing .flowing .speech [] with lateRun := 2, earlyRun := 2 };
      c.state ≠ .waiting ∧ ¬ (c.state = .gap ∧ c.mode = .speech ∧ (header 1 0 false).spurt = true) ∧
      (∀ b ∈ (header 1 760 false).blocks, c.classify b = .late) ∧ (∀ b ∈ (header 1 3321 false).blocks, c.classify b = .early) ∧
      (∃ b ∈ (header 1 761 false).blocks, c.classify b = .placeable) ∧ c.lateRun < 3 ∧ c.earlyRun < 3) := by decide +kernel

/-- The fourth outcome: an early block and, 80 samples on, a late one, on the two sides of the wrap. -/
theorem witness_RunsFollowTheTrialClassification_mixed :
    let c := { playing .flowing .speech [] with lateRun := 2, earlyRun := 2 }
    let h := header 2 2147484410 false
    (∃ b ∈ h.blocks, c.classify b = .late) ∧ (∃ b ∈ h.blocks, c.classify b = .early) ∧
    (∀ b ∈ h.blocks, c.classify b ≠ .placeable) ∧ c.lateRun < 3 ∧ c.earlyRun < 3 ∧ c.state ≠ .waiting := by decide +kernel

theorem witness_BlockPlacementMakesAndCounts :
    let d := fun ts : Word => roundedDistance ((ts - (playing .flowing .speech [entry 880]).cursor).toInt)
    d 760 < 0 ∧ 2560 ≤ d 3321 ∧ (0 ≤ d 761 ∧ d 761 < 2560) ∧ (0 ≤ d 3320 ∧ d 3320 < 2560) ∧
    (∃ e ∈ (playing .flowing .speech [entry 880]).list, e.ts = 800 + BitVec.ofInt 32 (d 880)) ∧
    (∀ e ∈ (playing .flowing .speech [entry 880]).list, e.ts ≠ 800 + BitVec.ofInt 32 (d 3320)) ∧
    (playing .flowing .speech [entry 800, entry 880]).list.Pairwise (fun x y => rawDistance x.ts 800 < rawDistance y.ts 800) ∧
    (playing .flowing .speech []).counters.length = 12 ∧ Counter.played ≠ .concealed ∧ (1 : Nat) ≠ Counter.played.index := by
  decide +kernel

theorem witness_ArrivalFollowsItsKind :
    (let c := { playing .gap .speech [] with prevTransit := some 7 };
      c.prevTransit = some 7 ∧ c.state = .gap ∧ c.mode = .speech ∧ (header 1 0 true).spurt = true) ∧
    (∀ run ∈ [1, 2],
      let c := { playing .flowing .speech [] with prevTransit := some 7, lateRun := run }
      c.prevTransit = some 7 ∧ (c.alignment (header 1 0 false)).1 = if run = 2 then .resync false else .ordinary) ∧
    (let c := { playing .waiting .speech [] with target := 30 };
      c.state = .waiting ∧ c.list = [] ∧ c.target ≤ 30 ∧ 1 ≤ (header 1 0 true).primary) ∧
    (let c := { playing .waiting .steady [] with steady := some 30 };
      c.state = .waiting ∧ c.list = [] ∧ c.steady.getD c.target ≤ 30) := by decide +kernel

theorem witness_ResyncReturnsItsCells :
    ((keep go 5 1 2).keptAt (5 : CellNo).val = some { role := .parcel 1 2, clash := false } ∧ (2 : Nat) ≤ 2) ∧
    ((keep go 5 1 1).keptAt (5 : CellNo).val = some { role := .parcel 1 1, clash := false } ∧ (1 : Nat) ≤ 1) := by decide +kernel

theorem witness_FrameBoundaryHandsOnItsFrames :
    go.canTake (.frame 1) = true ∧ (go.chan.get 1).state = .closed ∧ (playing .waiting .steady []).state = .waiting ∧
    (let c := { playing .gap .steady [] with hold := 1 };
      (go.setChan 1 c).canTake (.frame 1) = true ∧ (c.state = .flowing ∨ c.state = .gap) ∧ 0 < c.hold) ∧
    (let c := playing .flowing .steady [entry 800, entry 880];
      (go.setChan 1 c).canTake (.frame 1) = true ∧ (c.state = .flowing ∨ c.state = .gap) ∧ c.hold = 0 ∧ c.trim = false ∧
      c.list.find? (fun x => x.ts == c.cursor) = some (entry 800)) := by decide +kernel

theorem witness_FrameBoundaryConcealsOrFills :
    ∀ m ∈ [Mode.speech, Mode.steady],
      let c := playing .flowing m [entry 880]
      (go.setChan 1 c).canTake (.frame 1) = true ∧ (c.state = .flowing ∨ c.state = .gap) ∧ c.hold = 0 ∧ c.trim = false ∧
      (∀ e ∈ c.list, e.ts ≠ c.cursor) ∧ c.mode = m := by decide +kernel

theorem witness_DepthControlAndTrimStep :
    (playing .flowing .steady []).mode = .steady ∧
    (∀ excess ∈ [18, 19],
      let c := { playing .flowing .speech ((List.range 5).map fun k => entry (BitVec.ofNat 32 (880 + 80 * k))) with excess := excess }
      c.mode = .speech ∧ c.state = .flowing ∧ c.list ≠ [] ∧ c.target + 3 ≤ c.list.length ∧ (c.excess < 19 ∨ 19 ≤ c.excess)) ∧
    (let c := playing .flowing .speech ((List.range 4).map fun k => entry (BitVec.ofNat 32 (880 + 80 * k)));
      c.mode = .speech ∧ c.list.length < c.target + 3) ∧
    (∀ es ∈ [[entry 800], [entry 880]],
      let c := { playing .flowing .speech es with trim := true }
      (go.setChan 1 c).canTake (.frame 1) = true ∧ (c.state = .flowing ∨ c.state = .gap) ∧ c.hold = 0 ∧ c.trim = true ∧
      ((∀ e ∈ c.list, e.ts ≠ c.cursor) ∨ c.list.find? (fun x => x.ts == c.cursor) = some (entry 800))) := by decide +kernel

/-- Channel 1 with two entries of the kept cell 5, and everything that must be in order in order. -/
def ordered : State :=
  keep ((go.setChan 1 (playing .flowing .speech [entry 800, entry 880])).setCap 1 { Capture.reset with state := .silent }) 5 1 2

theorem witness_FrameBoundariesOfTwoChannelsCommute :
    (1 : LineNo) ≠ 2 ∧ ordered.mem.wf = true ∧ ordered.keepingOk ∧ after (.frameBoundary 1) ordered ≠ ordered ∧
    after (.frameBoundary 2) ordered ≠ ordered := by
  unfold State.keepingOk
  decide +kernel

theorem witness_ToneTriggerEntersSteady :
    let s := fun on : Bool => (go.setVerdict 1 { Verdict.reset with triggers := [.toneLine] }).setChan 1
      { playing .flowing .speech [] with params := { OpenParams.reset with autoSteady := on } }
    (s true).clock.running = true ∧ TriggerCause.toneLine ∈ ((s true).verdict.get 1).triggers ∧
    (((s true).chan.get 1).state ≠ .closed ∧ ((s true).chan.get 1).mode = .speech ∧ ((s true).chan.get 1).params.autoSteady = true) ∧
    ((s false).clock.running = true ∧ TriggerCause.toneLine ∈ ((s false).verdict.get 1).triggers ∧
      ((s false).chan.get 1).params.autoSteady = false) := by decide +kernel

/-- Channel 1 open with a capture record, its port delivering a steady −80. -/
def capturing (p : OpenParams) (c : Capture) : State :=
  ((go.setChan 1 { playing .waiting .speech [] with params := p }).setCap 1 c).setPort 1
    { Port.reset with state := .idle, lineFrame := List.replicate 80 (BitVec.ofInt 14 (-80)) }

theorem witness_CaptureKeepsHistoryAndTimestamp :
    (go.canTake (.capture 1) = true ∧ (go.chan.get 1).state = .closed) ∧
    (∀ threshold ∈ [80, 81],
      let p := { OpenParams.reset with vadThreshold := threshold }
      let s := capturing p { Capture.reset with state := .silent }
      s.canTake (.capture 1) = true ∧ (s.chan.get 1).state ≠ .closed ∧ (s.cap.get 1).state = .silent ∧
      (threshold ≤ energy (s.captureFrame 1 .speech) ↔ threshold = 80)) := by decide +kernel

theorem witness_CapturePeriodsClaimRunAndStarve :
    (∀ cells ∈ [[9], [9, 8]], ∀ packing ∈ [1, 2],
      let s := stock (capturing { OpenParams.reset with packing := packing, vadThreshold := 80 } { Capture.reset with state := .silent }) cells
      s.canTake (.capture 1) = true ∧ (s.chan.get 1).state ≠ .closed ∧ (s.cap.get 1).state = .silent ∧
      80 ≤ energy (s.captureFrame 1 (s.chan.get 1).mode) ∧ (2 ≤ (s.chan.get 1).params.packing ∨ (s.chan.get 1).params.packing = 1) ∧
      (s.ex.spare.length ≤ s.ex.reserve ∨ s.ex.spare = 9 :: [8] ∧ s.ex.reserve < [(8 : CellNo)].length + 1)) ∧
    (∀ frames ∈ [1, 2], ∀ cell ∈ [none, some (9 : CellNo)],
      let s := capturing { OpenParams.reset with packing := 3 } { Capture.reset with state := .packing, assembly := cell, frames := frames }
      s.canTake (.capture 1) = true ∧ (s.chan.get 1).state ≠ .closed ∧ (s.cap.get 1).state = .packing ∧ (s.cap.get 1).assembly = cell ∧
      ((s.cap.get 1).frames + 1 < (s.chan.get 1).params.packing ∨ (s.chan.get 1).params.packing ≤ (s.cap.get 1).frames + 1)) := by
  decide +kernel

theorem witness_CaptureHandsOverTheParcel :
    let s := capturing { OpenParams.reset with packing := 6 } { Capture.reset with state := .packing, assembly := some 9, frames := 5 }
    s.canTake (.capture 1) = true ∧ (s.chan.get 1).state ≠ .closed ∧ (s.cap.get 1).state = .packing ∧
    (s.cap.get 1).assembly = some 9 ∧ (s.cap.get 1).frames + 1 = (s.chan.get 1).params.packing := by decide +kernel

theorem witness_CompandingAndBlocksKeepTheSamples :
    ((0x80 : Byte) ≠ 0x7F ∧ 0 ≤ (8191 : Sample).toInt ∧ (BitVec.ofInt 14 (-8192)).toInt < 0) ∧
    (go.mem.wf = true ∧ silence.length = 80 ∧ (5 : Nat) < Coding.mu.capacity ∧ (2 : Nat) < Coding.lin16.capacity) ∧
    cellAddr 125 (32 + Coding.lin16.blockSize * 3) ≤ 65536 := by decide +kernel

theorem witness_EnergyGainAndScaling :
    silence.length = 80 ∧
    (([1, 2] : Frame).map fun x => x.toInt.natAbs).Perm (([2, BitVec.ofInt 14 (-1)] : Frame).map fun x => x.toInt.natAbs) ∧
    (32 : Nat) ≤ 32 ∧ (15 : Nat) ≤ 15 ∧ (3 : Nat) ≤ 3 := by decide +kernel

theorem witness_PortOrdersFollowTheirRules :
    ((go.port.get 3).state = .down ∧ (talking Port.reset |>.port.get 3).state = .offhook) ∧
    ((2 : Byte) ≠ 0 ∧ (2 : Byte) ≠ 1 ∧ ((1 : Byte) = 0 ∨ (1 : Byte) = 1)) ∧
    (max 300 (min 2000 299) ≤ max 60 (min 400 400) ∧ max 60 (min 400 299) < max 300 (min 2000 300)) := by decide +kernel

/-- Port 2 in BURST with a trip count. -/
def tripping (k : Nat) : State := (ringing .burst cadence).setRing 2 { Ring.reset with sub := .burst, run := some cadence, trip := k }

/-- Port 2 outside BURST, one scan before its filtered level is off-hook. -/
def lifting (sub : SubPhase) : State := (ringing sub cadence).setPort 2 { Port.reset with state := .ringing, differing := 7 }

theorem tripping_linesOk : (tripping 4).linesOk ∧ (tripping 5).linesOk := by
  unfold State.linesOk State.lineOk
  exact ⟨by decide +kernel, by decide +kernel⟩

theorem lifting_linesOk : (lifting .rest).linesOk ∧ (lifting .ident).linesOk := by
  unfold State.linesOk State.lineOk
  exact ⟨by decide +kernel, by decide +kernel⟩

theorem waiting_linesOk : waiting.linesOk := by
  unfold State.linesOk State.lineOk
  decide +kernel

/-- Port 2 with an identity in PENDING, whatever its sub-phase. -/
def withIdentity (s : State) : State := s.setIdent 2 { Ident.reset with status := .pending, buffer := [0x80, 0x80] }

theorem withIdentity_linesOk : (withIdentity (tripping 5)).linesOk ∧ (withIdentity waiting).linesOk :=
  ⟨tripping_linesOk.2, waiting_linesOk⟩

theorem witness_RingingEndsByOrder :
    ((tripping 4).linesOk ∧ waiting.linesOk ∧ (withIdentity (tripping 5)).linesOk ∧ (withIdentity waiting).linesOk) ∧
    (go.port.get 2).state ≠ .ringing ∧
    (∀ s ∈ [tripping 4, waiting],
      (s.port.get 2).state = .ringing ∧ (s.ident.get 2).status ≠ .pending ∧ (s.ident.get 2).status ≠ .sending) ∧
    (∀ s ∈ [withIdentity (tripping 5), withIdentity waiting], (s.port.get 2).state = .ringing ∧ (s.ident.get 2).status = .pending) :=
  ⟨⟨tripping_linesOk.1, waiting_linesOk, withIdentity_linesOk⟩, by decide +kernel⟩

theorem witness_ChannelOpenStoresItsParameters :
    ((playing .gap .speech []).state ≠ .closed ∧ (go.chan.get 1).state = .closed) ∧
    ((47 : Nat) < 32 + 16 * 1 ∧ 512 < 493 + 20 ∧ (go.cellByte 7 48).toNat = 0 ∧ 3 < ((poke go (cellAddr 7 48) [4]).cellByte 7 48).toNat) ∧
    (32 + 16 * 1 ≤ 48 ∧ 492 + 20 ≤ 512 ∧ (poke go (cellAddr 7 48) [1]).cellByte 7 48 = Coding.mu.code) := by decide +kernel

theorem witness_CloseSnapshotAndReserveOrders :
    ((go.chan.get 1).state = .closed ∧ (ordered.chan.get 1).state ≠ .closed) ∧
    ((47 : Nat) < 32 + 16 * 1 ∧ 512 < 449 + 64 ∧ 32 + 16 * 1 ≤ 48 ∧ 448 + 64 ≤ 512) ∧ (4 : Nat) ≤ 4 ∧ 4 < (5 : Nat) := by decide +kernel

theorem witness_SteadyAndSpeechOrders :
    (go.chan.get 1).state = .closed ∧
    (let c := { playing .flowing .speech [] with target := 30 };
      c.state ≠ .closed ∧ c.target ≤ 30 ∧ c.mode = .speech) ∧
    (let c := playing .flowing .steady [];
      c.state ≠ .closed ∧ c.target ≤ 30 ∧ c.mode = .steady ∧ c.steady.getD 0 < min 30 5 ∧ c.steady.getD 0 = min 30 4 ∧
      min 30 3 < c.steady.getD 0) := by decide +kernel

theorem witness_RingOrderStartsTheRun :
    (go.port.get 2).state ≠ .idle ∧
    (let s := (tables go).setPort 2 { Port.reset with state := .idle };
      (s.port.get 2).state = .idle ∧ 15 < (16 : Nat) ∧ (15 : Nat) ≤ 15 ∧ 200 < (201 : Nat) ∧
      (0 < (200 : Nat) ∧ 512 < 313 + 200) ∧ (200 : Nat) ≤ 200 ∧ ¬ (0 < (200 : Nat) ∧ (312 < 32 + 16 * 1 ∨ 512 < 312 + 200)) ∧
      (∀ d ∈ (s.cadenceRecord 1).durations, d = 0) ∧ (∃ d ∈ (s.cadenceRecord 0).durations, d ≠ 0) ∧ s.arb.grantA = none) ∧
    (let s := (tables (tripping 4)).setPort 3 { Port.reset with state := .idle };
      (s.port.get 3).state = .idle ∧ s.arb.grantA ≠ none ∧ s.arb.grantB = none ∧ (s.cadenceRecord 0).start.map CadenceRun.onHalf = some true) ∧
    (let s := poke ((tables go).setPort 2 { Port.reset with state := .idle }) 0x100 [2];
      (s.port.get 2).state = .idle ∧ (s.cadenceRecord 0).start.map CadenceRun.onHalf = some false) ∧
    (let s := ((tables waiting).setPort 3 { Port.reset with state := .idle });
      (s.port.get 3).state = .idle ∧ s.arb.grantA ≠ none ∧ s.arb.grantB ≠ none ∧ (∃ d ∈ (s.cadenceRecord 0).durations, d ≠ 0)) := by
  decide +kernel

theorem witness_ToneOrdersStartAndStop :
    let s := tables (talking Port.reset)
    ((go.port.get 3).state ≠ .offhook ∧ (s.port.get 3).state = .offhook) ∧ 15 < (16 : Nat) ∧
    (∀ d ∈ (s.cadenceRecord 1).durations, d = 0) ∧ (∃ d ∈ (s.cadenceRecord (s.toneRecord 0).cadence).durations, d ≠ 0) ∧
    (s.toneRecord 0).cadence ≤ 15 ∧ (s.tone.get 3).running = false ∧
    ((s.setTone 3 { Tone.reset with running := true, run := some cadence }).tone.get 3).running = true := by decide +kernel

theorem witness_ScanSeizesAnIdlePort :
    (go.canTake (.scan 3) = true ∧ (go.port.get 3).state = .down) ∧
    (∀ k ∈ [6, 7],
      let s := go.setPort 3 { Port.reset with state := .idle, differing := k }
      s.canTake (.scan 3) = true ∧ (s.port.get 3).state = .idle ∧
      (if (s.port.get 3).filter ≤ (s.port.get 3).differing + 1 then k = 7 else k = 6)) := by decide +kernel

theorem witness_OffhookScanBreaksAndMakes :
    (let s := talking Port.reset;
      s.canTake (.scan 3) = true ∧ (s.port.get 3).state = .offhook ∧ (s.port.get 3).filtered = true) ∧
    (let r := { Port.reset with state := .offhook, filtered := true, differing := 7 };
      r.filtered ≠ false ∧ r.filter ≤ r.differing + 1 ∧ ¬ r.filter ≤ 6 + 1) ∧
    ∀ b ∈ [19, 20, 99, 100], ∀ pulses ∈ [0, 1, 9, 10, 11],
      let s := go.setPort 3 { Port.reset with state := .offhook, differing := 7, breakCount := some b, pulses := pulses }
      s.canTake (.scan 3) = true ∧ (s.port.get 3).state = .offhook ∧ true ≠ (s.port.get 3).filtered ∧
      (s.port.get 3).filter ≤ (s.port.get 3).differing + 1 ∧ (s.port.get 3).breakCount = some b ∧
      (b < (s.port.get 3).timing.pulseMin ∨ (s.port.get 3).timing.pulseMin ≤ b ∧ b < (s.port.get 3).timing.flashMin ∨
        (s.port.get 3).timing.flashMin ≤ b) := by decide +kernel

theorem witness_PortTimerExpiryCountsAndReports :
    (talking Port.reset).canTake (.timer 3) = true ∧ Port.reset.breakCount = none ∧ Port.reset.gapCount = none ∧
    (∀ b ∈ [798, 799],
      let r := { Port.reset with state := .offhook, breakCount := some b }
      (go.setPort 3 r).canTake (.timer 3) = true ∧ r.gapCount = none ∧ (b + 1 < r.timing.hangupMin ∨ r.timing.hangupMin ≤ b + 1)) ∧
    ∀ g ∈ [298, 299], ∀ pulses ∈ [0, 1, 9, 10, 11],
      let r := { Port.reset with state := .offhook, gapCount := some g, pulses := pulses }
      (go.setPort 3 r).canTake (.timer 3) = true ∧ r.breakCount = none ∧ (g + 1 < r.timing.digitGap ∨ r.timing.digitGap ≤ g + 1) := by
  decide +kernel

theorem witness_RingingScanTrips :
    (tripping 4).linesOk ∧ (tripping 5).linesOk ∧ (lifting .rest).linesOk ∧ (lifting .ident).linesOk ∧ waiting.linesOk ∧
    (∀ k ∈ [4, 5], (tripping k).canTake (.scan 2) = true ∧ ((tripping k).port.get 2).state = .ringing ∧
      ((tripping k).ring.get 2).sub = .burst ∧ (((tripping k).ring.get 2).trip < 5 ∨ 5 ≤ ((tripping k).ring.get 2).trip)) ∧
    (∀ sub ∈ [SubPhase.rest, .ident],
      let s := lifting sub
      s.canTake (.scan 2) = true ∧ (s.port.get 2).state = .ringing ∧ (s.ring.get 2).sub = sub ∧
      (s.ident.get 2).status ≠ .pending ∧ (s.ident.get 2).status ≠ .sending ∧ (s.port.get 2).filter ≤ (s.port.get 2).differing + 1) ∧
    (waiting.canTake (.scan 2) = true ∧ (waiting.ring.get 2).sub = .waitGrant ∧ (waiting.port.get 2).state = .ringing) ∧
    (let s := (lifting .ident).setIdent 2 { Ident.reset with status := .sending };
      s.canTake (.scan 2) = true ∧ (s.port.get 2).state = .ringing ∧ (s.ring.get 2).sub = .ident ∧ (s.ident.get 2).status = .sending ∧
      (s.port.get 2).filter ≤ (s.port.get 2).differing + 1) ∧
    (let s := withIdentity (tripping 5);
      s.canTake (.scan 2) = true ∧ (s.port.get 2).state = .ringing ∧ (s.ring.get 2).sub = .burst ∧ 5 ≤ (s.ring.get 2).trip ∧
      (s.ident.get 2).status = .pending) :=
  ⟨tripping_linesOk.1, tripping_linesOk.2, lifting_linesOk.1, lifting_linesOk.2, waiting_linesOk, by decide +kernel⟩

/-- A cadence of one tick on and a rest, at the last tick of its burst. -/
def lastTick (once : Bool) (off : Nat) : CadenceRun := { cadence with count := 1, once := once, durations := [1, off, 0, 0, 0, 0, 0, 0] }

/-- `waiting` with port 0's burst at its last tick, and an identity status. -/
def releasing (once : Bool) (off : Nat) (st : IdentStatus) : State :=
  (waiting.setRing 0 { Ring.reset with sub := .burst, run := some (lastTick once off) }).setIdent 0 { Ident.reset with status := st }

theorem releasing_linesOk : ∀ once : Bool, ∀ off ∈ [0, 5], ∀ st ∈ [IdentStatus.none, .pending], (releasing once off st).linesOk := by
  unfold State.linesOk State.lineOk
  decide +kernel

theorem witness_GrantsPassAndRingDriveToggles :
    waiting.linesOk ∧
    (∀ once : Bool, ∀ off ∈ [0, 5], ∀ st ∈ [IdentStatus.none, .pending], (releasing once off st).linesOk) ∧
    (∀ once : Bool, ∀ off ∈ [0, 5], ∀ st ∈ [IdentStatus.none, .pending],
      let c := lastTick once off
      let s := releasing once off st
      s.canTake (.tick 0) = true ∧ (s.ring.get 0).sub = .burst ∧ (s.ring.get 0).run = some c ∧ c.count ≤ 1 ∧ s.arb.grantA = some 0 ∧
      s.arb.waitList ≠ [] ∧ (s.ident.get 0).status = st ∧ (s.ident.get 0).hold = false ∧
      c.nextHalf.map c.isOn = if off = 0 then (if once then none else some true) else some false) ∧
    (waiting.canTake (.tick 0) = true ∧ waiting.arb.waitList = [2] ∧ (waiting.ring.get 0).sub = .burst ∧
      (waiting.ring.get 0).segment ≤ 1 ∧ waiting.arb.grantA = some 0 ∧ waiting.arb.grantB = some 1) ∧
    (waiting.canTake (.tick 2) = true ∧ (waiting.ring.get 2).sub ≠ .burst) ∧
    (∀ d ∈ [24, 25],
      let g := { Ring.reset with sub := .burst, run := some cadence, drive := d }
      (g.freq + 1 ≤ g.drive ∨ g.drive ≤ g.freq)) ∧
    (∀ c ∈ [{ cadence with count := 1 }, { cadence with count := 1, once := true, durations := [1, 0, 0, 0, 0, 0, 0, 0] },
        { cadence with count := 1, durations := [1, 0, 1, 0, 0, 0, 0, 0] }],
      let s := ringing .burst c
      s.canTake (.tick 2) = true ∧ s.arb.waitList = [] ∧ (s.ring.get 2).sub = .burst ∧ (s.ring.get 2).run = some c ∧ c.count ≤ 1 ∧
      s.arb.grantA = some 2 ∧ (s.ident.get 2).status ≠ .pending ∧
      c.nextHalf.map c.isOn = if c.once then none else some (c.durations.getD 1 0 == 0)) ∧
    (let s := (ringing .burst { cadence with count := 1 }).setIdent 2 { Ident.reset with status := .pending };
      s.canTake (.tick 2) = true ∧ s.arb.waitList = [] ∧ (s.ident.get 2).status = .pending ∧ (s.ident.get 2).hold = false) ∧
    (go.arb.grantA = none ∧ (tripping 4).arb.grantA ≠ none ∧ (tripping 4).arb.grantB = none) ∧
    (waiting.arb.grantA ≠ none ∧ waiting.arb.grantB ≠ none) := ⟨waiting_linesOk, releasing_linesOk, by decide +kernel⟩

theorem witness_IdentityMovesOnAtItsTicks :
    let run := { cadence with pos := 1, count := 200 }
    (let s := identifying .rest { Ident.reset with status := .pending, delay := 1, hold := true };
      s.canTake (.tick 2) = true ∧ (s.ring.get 2).run = some run ∧ (s.ring.get 2).sub = .rest ∧ (s.ident.get 2).status = .pending ∧
      (s.ident.get 2).hold = true ∧ (s.ident.get 2).delay ≤ 1) ∧
    (let s := identifying .rest { Ident.reset with status := .pending, delay := 2, hold := true };
      s.canTake (.tick 2) = true ∧ (s.ring.get 2).run = some run ∧ 1 < (s.ident.get 2).delay) ∧
    (let s := identifying .ident { Ident.reset with status := .sending, send := 1, hold := true };
      s.canTake (.tick 2) = true ∧ (s.ring.get 2).run = some run ∧ (s.ring.get 2).sub = .ident ∧ (s.ident.get 2).status = .sending ∧
      (s.ident.get 2).send ≤ 1) ∧
    (∀ n ∈ [1, 2],
      let c := { cadence with pos := 1, count := n, durations := [0, 200, 0, 0, 0, 0, 0, 0] }
      let s := (ringing .rest c).setIdent 2 { Ident.reset with status := .tail, tail := 1, hold := true }
      s.canTake (.tick 2) = true ∧ (s.ring.get 2).run = some c ∧ (s.ring.get 2).sub = .rest ∧ (s.ident.get 2).status = .tail ∧
      (s.ident.get 2).tail ≤ 1 ∧ (1 < c.count ∨ c.nextHalf = some 1 ∧ c.isOn 1 = false)) ∧
    (∀ once : Bool,
      let c := { cadence with once := once, pos := 1, count := 1 }
      let s := (ringing .rest c).setIdent 2 { Ident.reset with status := .tail, tail := 1, hold := true }
      s.canTake (.tick 2) = true ∧ (s.ring.get 2).run = some c ∧ (s.ring.get 2).sub = .rest ∧ c.count ≤ 1 ∧
      c.nextHalf.map c.isOn = if once then none else some true) ∧
    (let s := identifying .ident { Ident.reset with status := .sending, send := 2, hold := true };
      s.canTake (.tick 2) = true ∧ (s.ring.get 2).run = some run ∧ (s.ring.get 2).sub = .ident ∧ 1 < (s.ident.get 2).send) ∧
    (let s := identifying .rest { Ident.reset with status := .tail, tail := 2, hold := true };
      s.canTake (.tick 2) = true ∧ (s.ring.get 2).run = some run ∧ (s.ring.get 2).sub = .rest ∧ 1 < (s.ident.get 2).tail) := by
  decide +kernel

theorem witness_IdentityStreamAndSynthesis :
    (8191 : Nat) ≤ 8191 ∧ Tone.reset.half = false ∧ { Tone.reset with half := true }.half = true ∧
    (299 : Nat) < 300 ∧ (300 : Nat) ≤ 479 ∧ ([0x80, 0x01] : List Byte)[1]? = some 0x01 ∧
    480 + 10 * ([0x80, 0x01] : List Byte).length ≤ 500 ∧ ((20 * 1 + 2) / 3 ≤ 7 ∧ 13 < (20 * (1 + 1) + 2) / 3) := by decide

theorem witness_CadenceEngineFindsTheNextHalf :
    (let r : CadenceRecord := { once := true, offFirst := false, durations := [0, 0, 0, 0, 0, 0, 0, 9] };
      r.durations.length = 8 ∧ r.start.map CadenceRun.pos = some 7) ∧
    (cadence.pos < 8 ∧ cadence.nextHalf = some 1) ∧
    (let c := { cadence with once := true, pos := 7 };
      c.pos < 8 ∧ c.nextHalf = none) := by decide +kernel

theorem witness_CadenceTickCountsAndAdvances :
    (go.canTake (.tick 2) = true ∧ (go.ring.get 2).run = none ∧ (go.tone.get 2).run = none) ∧
    (waiting.canTake (.tick 2) = true ∧ (waiting.ring.get 2).sub = .waitGrant ∧ (waiting.ring.get 2).run = some { cadence with count := 1 }) ∧
    (∀ n ∈ [1, 2], ∀ pos ∈ [0, 1], ∀ once : Bool,
      let c := { cadence with once := once, pos := pos, count := n }
      let s := (talking Port.reset).setTone 3 { Tone.reset with running := true, run := some c }
      s.canTake (.tick 3) = true ∧ (s.ring.get 3).run = none ∧ (s.tone.get 3).run = some c ∧ (1 < c.count ∨ c.count ≤ 1) ∧
      (c.nextHalf = none ↔ once = true ∧ pos = 1)) ∧
    (∀ once : Bool, ∀ on0 ∈ [0, 100],
      let c := { cadence with once := once, pos := 1, count := 1, durations := [on0, 200, 0, 0, 0, 0, 0, 0] }
      let s := ringing .rest c
      s.canTake (.tick 2) = true ∧ (s.ring.get 2).run = some c ∧ (s.ring.get 2).sub = .rest ∧ (s.ident.get 2).status = .none ∧
      (s.ident.get 2).hold = false ∧ c.count ≤ 1 ∧ s.arb.grantA = none ∧
      (c.nextHalf = none ↔ once = true) ∧ (∀ k, c.nextHalf = some k → (c.isOn k = true ↔ on0 = 100))) ∧
    (∀ n ∈ [1, 2], ∀ once : Bool,
      let c := { cadence with offFirst := true, once := once, pos := 0, count := n, durations := [0, 200, 0, 0, 0, 0, 0, 0] }
      let s := withIdentity (ringing .rest c)
      s.canTake (.tick 2) = true ∧ (s.ring.get 2).run = some c ∧ (s.ring.get 2).sub = .rest ∧ (s.ident.get 2).status = .pending ∧
      (s.ident.get 2).hold = false ∧ (1 < c.count ∨ c.count ≤ 1) ∧ c.nextHalf = if once then none else some 0) := by
  simp only [CadenceRun.nextHalf]
  decide +kernel

theorem witness_LineVerdictDrivesTheLineRuns :
    (go.canTake (.verdict 3) = true ∧ (go.port.get 3).state ≠ .offhook) ∧
    (let s := talking { Port.reset with lineFrame := silence };
      s.canTake (.verdict 3) = true ∧ (s.port.get 3).state = .offhook ∧ lineVerdictOf (s.port.get 3).lineFrame = .noVerdict) := by
  decide +kernel

theorem witness_DebounceTurnsDigitsOnAndOff :
    (∀ run ∈ [2, 3],
      let v := { Verdict.reset with candidate := some 5, candRun := run }
      v.digitOn = none ∧ v.candidate = some 5 ∧ min 4 (v.candRun + 1) = run + 1 ∧ v.candidate ≠ some 6) ∧
    (∀ off ∈ [2, 3], ∀ run ∈ [2, 3],
      let v := { Verdict.reset with digitOn := some 5, candidate := some 6, candRun := run, offRun := off }
      v.digitOn = some 5 ∧ (5 : Nat) ≠ 6 ∧ (v.offRun < 3 ∨ 3 ≤ v.offRun) ∧ v.candidate = some 6 ∧ v.candidate ≠ some 7 ∧
      (min 4 (v.candRun + 1) = 4 ↔ run = 3)) := by decide +kernel

theorem witness_FrameAnalysisGivesTheVerdict :
    (∀ x ∈ silence, x = 0) ∧
    ((∃ x ∈ fax, x ≠ 0) ∧ steadySum [{ step := 17203 * 2 ^ 48, amp := 1000 * 2 ^ 48, phase := 0 }] fax = true) ∧
    digitTest [{ freq := 7700, amp := 640 }, { freq := 13827, amp := 256 }, { freq := 20, amp := 128 }] = some 5 ∧
    digitTest [{ freq := 7700, amp := 641 }, { freq := 13360, amp := 256 }] = none ∧
    (770 ∈ [697, 770, 852, 941] ∧ 20 * ((7969 : Int) - 10 * 770).natAbs ≤ 7 * 770) :=
  ⟨fun _ h => List.eq_of_mem_replicate h, by decide +kernel⟩

theorem witness_FarFrameDrivesTheFarRuns :
    let f : FarFrame := { boundary := 0, sc := 0, afresh := false, samples := silence }
    let s := go.setVerdict 3 { Verdict.reset with farFrames := [f, f], lastFar := some 0xFFFFFFFF }
    s.clock.running = true ∧ (s.verdict.get 3).farFrames = [f, f] ∧ (s.verdict.get 3).lastFar = some (f.boundary - 1) := by
  decide +kernel

/-- A mark writer with a queue of `q` marks and `l` lost, the stock holding `cells`. -/
def writer (q l : Nat) (cells : List CellNo) : State :=
  { stock go cells with marks := { sheet := none, count := 0, queue := List.replicate q State.reset.marksLost, lost := l } }

/-- A mark writer with an open sheet of `m` marks. -/
def sheetOpen (m : Nat) : State :=
  { go.setKept 7 { role := .markSheet, clash := false } with marks := { sheet := some 7, count := m, queue := [], lost := 0 } }

theorem witness_MarkWriterPlacesEveryMark :
    (∀ m ∈ [26, 27], (sheetOpen m).marks.sheet = some 7 ∧ (sheetOpen m).marks.queue = [] ∧ (sheetOpen m).canTake .markWriter = true ∧
      ((sheetOpen m).marks.count < 27 ∨ (sheetOpen m).marks.count = 27)) ∧
    (∀ q ∈ [15, 16], (writer q 0 []).marks.sheet = none ∧ (writer q 0 []).ex.spare = [] ∧
      ((writer q 0 []).marks.queue.length < 16 ∨ 16 ≤ (writer q 0 []).marks.queue.length)) ∧
    (∀ l ∈ [0, 65535], (writer 16 l [9]).marks.sheet = none ∧ (writer 16 l [9]).ex.spare = 9 :: [] ∧
      (writer 16 l [9]).marks.queue.length ≤ 16 ∧ (writer 16 l [9]).marks.queue ≠ [] ∧ (writer 16 l [9]).mem.wf = true ∧
      (writer 16 l [9]).canTake .markWriter = true) ∧
    ((writer 0 0 [9]).marks.sheet = none ∧ (writer 0 0 [9]).marks.queue = []) := by decide +kernel

theorem witness_SamplePeriodAdvancesTheClock :
    State.reset.clock.running = false ∧ go.clock.running = true ∧
    (let s := { go with clock := { go.clock with phase := 79, sc := 0xFFFFFFFF } };
      s.clock.running = true ∧ 79 ≤ s.clock.phase ∧ (s.clock.sc + 1).toNat % 8 = 0) ∧
    (¬ 79 ≤ go.clock.phase ∧ ¬ (go.clock.sc + 1).toNat % 8 = 0) ∧ go.clock.work = [] ∧ go.quiet = false ∧
    { go with due := Due.reset }.quiet = true ∧
    { go with clock := { go.clock with work := [[.all 0], []] } }.clock.work = [.all 0] :: [[]] := by decide +kernel

/-- The step that takes a command in front of a state's queue answers a next state. -/
def steps (s : State) (c : Instr) : Bool :=
  match step { s with pending := [c] } with
  | .next _ => true
  | _ => false

theorem witness_StepKeepsMemoryCanonical : ordered.memoryOk ∧ steps ordered (.frameBoundary 1) = true := by
  unfold State.memoryOk
  decide +kernel

theorem witness_StepLeavesScratchAndTablesAlone :
    (ordered.memoryOk ∧ ordered.stockOk ∧ ordered.captureOk ∧ ordered.keepingOk) ∧
    { ordered with pending := [.frameBoundary 1] }.pending = .frameBoundary 1 :: [] ∧ steps ordered (.frameBoundary 1) = true ∧
    (0x7E : Nat) ≤ 0x7E ∧ (0x3FF : Nat) < 0x400 ∧ ordered.isKept 5 = true ∧ ordered.isKept 4 = false ∧ ordered.isKept 6 = false := by
  unfold State.memoryOk State.stockOk State.captureOk State.keepingOk
  decide +kernel

theorem witness_StepKeepsStockMarkAndCaptureBounds : (sheetOpen 27).stockOk ∧ (writer 16 65535 []).stockOk ∧
    steps (sheetOpen 27) .markWriterBoundary = true ∧
    ∀ k ∈ [1, 2], let s := capturing { OpenParams.reset with packing := 3, redundancy := 3 } { Capture.reset with state := .packing, frames := k }
      s.captureOk ∧ steps s (.captureEvent 1) = true := by
  unfold State.stockOk State.captureOk
  decide +kernel

theorem witness_StepKeepsPortsAndRingSupply : waiting.linesOk ∧ steps waiting (.cadenceTick 0) = true ∧
    ((0 : LineNo) ≠ 1 ∧ (0 : LineNo) ≠ 2 ∧ (1 : LineNo) ≠ 2 ∧ (waiting.ring.get 0).sub = .burst ∧ (waiting.ring.get 1).sub = .burst) :=
  ⟨waiting_linesOk, by decide +kernel⟩

theorem witness_StepKeepsPlayoutWindows : ordered.windowsOk ∧ steps ordered (.frameBoundary 1) = true := by
  unfold State.windowsOk Channel.windowOk
  decide +kernel

theorem witness_StepKeepsTheKeepingInOrder : ordered.keepingOk ∧ steps ordered (.frameBoundary 1) = true := by
  unfold State.keepingOk
  decide +kernel

end Sys2Proof.Tests
end

/-! ## The proof of O13: validation of a parcel header (R29), refusal (R10), header layout (R188) and block expansion (R28) -/

namespace Sys2Proof.Machine

/-! ### Line numbers and coding codes as bytes hold them -/

theorem lineOf_of_gt {t : Nat} (h : 3 < t) : lineOf t = none := dif_neg (by omega)

@[simp] theorem lineOf_val (ch : LineNo) : lineOf ch.val = some ch := dif_pos ch.isLt

@[simp] theorem codingOf_code (c : Coding) : codingOf c.code = some c := by cases c <;> rfl

/-- A code byte is valid for exactly the coding whose code it is (R188). -/
theorem codingOf_eq_some_iff (b : Byte) (c : Coding) : codingOf b = some c ↔ b = c.code := by
  constructor
  · intro h
    unfold codingOf at h
    split_ifs at h with hb hb hb
    all_goals obtain rfl := Option.some.inj h; exact hb
  · rintro rfl
    exact codingOf_code c

/-! ### The five tests of R29, in order -/

section Validation

variable {s : State} {h : ParcelHeader} {ch : LineNo} {coding : Coding}

theorem State.validateParcel_badChannel (hch : 3 < h.channel) : s.validateParcel h = .error 0x01 := by
  unfold State.validateParcel
  rw [lineOf_of_gt hch]
  rfl

theorem State.validateParcel_closed (hch : h.channel = ch.val) (hc : (s.chan.get ch).state = .closed) :
    s.validateParcel h = .error 0x02 := by
  simp [State.validateParcel, hch, hc, reasonClosed]

theorem State.validateParcel_badCoding (hch : h.channel = ch.val) (ho : (s.chan.get ch).state ≠ .closed)
    (hcod : h.coding = none) : s.validateParcel h = .error 0x03 := by
  simp [State.validateParcel, hch, ho, hcod, reasonBadCoding]

/-- Past the first three tests, the block count and then the lags decide. -/
theorem State.validateParcel_open (hch : h.channel = ch.val) (ho : (s.chan.get ch).state ≠ .closed)
    (hcod : h.coding = some coding) :
    s.validateParcel h =
      if h.primary = 0 ∨ coding.capacity < h.primary + h.redundant then .error 0x04
      else if ∃ l ∈ h.lags, l = 0 ∨ 15 < l then .error 0x05
      else .ok (ch, coding) := by
  simp [State.validateParcel, hch, ho, hcod, reasonBadCount, reasonBadLag]

end Validation

theorem State.dispatchParcel_of_error {s : State} {n : CellNo} {reason : Byte}
    (h : s.validateParcel (s.parcelHeader n) = .error reason) : s.dispatchParcel n = s.refuseCell n reason := by
  simp [State.dispatchParcel, h]

theorem State.dispatchParcel_of_ok {s : State} {n : CellNo} {ch : LineNo} {coding : Coding}
    (h : s.validateParcel (s.parcelHeader n) = .ok (ch, coding)) :
    s.dispatchParcel n = s.arrive ch n coding (s.parcelHeader n) := by
  simp [State.dispatchParcel, h]

/-- What the last two tests make of a parcel that has passed the first three (R29, R10). -/
theorem State.dispatchParcel_open (s : State) (n : CellNo) {ch : LineNo} {coding : Coding}
    (hch : (s.parcelHeader n).channel = ch.val) (ho : (s.chan.get ch).state ≠ .closed)
    (hcod : (s.parcelHeader n).coding = some coding) :
    s.dispatchParcel n =
      if (s.parcelHeader n).primary = 0 ∨ coding.capacity < (s.parcelHeader n).primary + (s.parcelHeader n).redundant then
        s.refuseCell n 0x04
      else if ∃ l ∈ (s.parcelHeader n).lags, l = 0 ∨ 15 < l then s.refuseCell n 0x05
      else s.arrive ch n coding (s.parcelHeader n) := by
  have hv := State.validateParcel_open hch ho hcod
  split at hv
  · next hcount => rw [if_pos hcount, State.dispatchParcel_of_error hv]
  · next hcount =>
    rw [if_neg hcount]
    split at hv
    · next hlag => rw [if_pos hlag, State.dispatchParcel_of_error hv]
    · next hlag => rw [if_neg hlag, State.dispatchParcel_of_ok hv]

/-! ### A refused cell (R10) -/

/-- A stamp's address lies below every cell. -/
theorem val_lt_cellAddr (n m : CellNo) (off : Nat) : n.val < cellAddr m off := by
  unfold cellAddr
  omega

@[simp] theorem State.refuseCell_chan (s : State) (n : CellNo) (reason : Byte) : (s.refuseCell n reason).chan = s.chan := rfl

theorem State.refuseCell_ready (s : State) (n : CellNo) (reason : Byte) :
    (s.refuseCell n reason).ex.ready = tallyAdd s.ex.ready := rfl

theorem State.refuseCell_mem (s : State) (n : CellNo) (reason : Byte) :
    (s.refuseCell n reason).mem = (s.mem.write (cellAddr n 16) reason).write n.val 0x3F := rfl

theorem State.refuseCell_stamp (s : State) (n : CellNo) (reason : Byte) (hm : s.mem.wf = true) :
    (s.refuseCell n reason).stamp n = 0x3F :=
  State.stamp_handOver_same _ n _ (Memory.wf_writeList [reason] _ _ hm)

theorem State.refuseCell_reason (s : State) (n : CellNo) (reason : Byte) (hm : s.mem.wf = true) :
    (s.refuseCell n reason).cellByte n 16 = reason := by
  have haddr : cellAddr n 16 < 65536 := by
    unfold cellAddr
    omega
  show Memory.read _ _ = _
  rw [State.refuseCell_mem, Memory.read_write_other _ _ (Memory.wf_write _ _ _ hm) (val_lt_cellAddr n n 16).ne',
    Memory.read_write_same _ _ hm haddr]

theorem State.refuseCell_byteAt (s : State) (n : CellNo) (reason : Byte) (hm : s.mem.wf = true) {a : Nat}
    (hstamp : a ≠ n.val) (hreason : a ≠ cellAddr n 16) : (s.refuseCell n reason).byteAt a = s.byteAt a := by
  show Memory.read _ _ = Memory.read _ _
  rw [State.refuseCell_mem, Memory.read_write_other _ _ (Memory.wf_write _ _ _ hm) hstamp,
    Memory.read_write_other _ _ hm hreason]

theorem State.refuseCell_isKept (s : State) (n : CellNo) (reason : Byte) (hk : tableRising s.ex.keeping = true) :
    (s.refuseCell n reason).isKept n.val = false := by
  have hput : tableRising (s.putCell n 16 [reason]).ex.keeping = true := hk
  simp [State.isKept, State.refuseCell, State.keptAt_handOver _ n _ n.val hput]

/-! ### The arrival time: the previous transit that an arrival leaves (R31, R51) -/

/-- Whatever the kind of the parcel, its transit is the next one's previous transit (R31). -/
@[simp] theorem Channel.jitterStepFor_prevTransit (c : Channel) (kind : ParcelKind) (t : Word) :
    (c.jitterStepFor kind t).prevTransit = some t := by
  unfold Channel.jitterStepFor
  split <;> rfl

/-- A block late, early, duplicate or placed is counted and listed, and the previous transit stays. -/
@[simp] theorem Channel.placeBlock_prevTransit (n : CellNo) (coding : Coding) (acc : Channel × Nat) (b : Block) :
    (Channel.placeBlock n coding acc b).1.prevTransit = acc.1.prevTransit := by
  unfold Channel.placeBlock
  dsimp only
  repeat' split
  all_goals rfl

theorem Channel.foldl_placeBlock_prevTransit (n : CellNo) (coding : Coding) (bs : List Block) :
    ∀ acc : Channel × Nat, (bs.foldl (Channel.placeBlock n coding) acc).1.prevTransit = acc.1.prevTransit := by
  induction bs with
  | nil => intro acc; rfl
  | cons b bs ih => intro acc; rw [List.foldl_cons, ih, Channel.placeBlock_prevTransit]

@[simp] theorem Channel.placeBlocks_prevTransit (c : Channel) (n : CellNo) (coding : Coding) (bs : List Block) :
    (c.placeBlocks n coding bs).1.prevTransit = c.prevTransit := by
  have hfold := Channel.foldl_placeBlock_prevTransit n coding bs (c, 0)
  unfold Channel.placeBlocks
  dsimp only
  split
  · exact hfold
  · exact hfold

@[simp] theorem State.moveCursor_prevTransit (s : State) (ch : LineNo) (kind : ParcelKind) (ts : Word) :
    ((s.moveCursor ch kind ts).chan.get ch).prevTransit = (s.chan.get ch).prevTransit := by
  cases kind with
  | anchoring => simp [State.moveCursor, Channel.realign]
  | reanchoring => simp [State.moveCursor, Channel.realign]
  | ordinary => rfl
  | resync early => simp [State.moveCursor, State.resync, State.giveLineMark, Channel.realign]

@[simp] theorem State.placeParcel_chan (s : State) (ch : LineNo) (n : CellNo) (coding : Coding) (bs : List Block) :
    (s.placeParcel ch n coding bs).chan = s.chan.set ch ((s.chan.get ch).placeBlocks n coding bs).1 := by
  unfold State.placeParcel
  dsimp only
  split <;> rfl

/-- A parcel's arrival time is SC at its take (R51). -/
theorem State.arrive_prevTransit (s : State) (ch : LineNo) (n : CellNo) (coding : Coding) (h : ParcelHeader) :
    ((s.arrive ch n coding h).chan.get ch).prevTransit = some (s.clock.sc - h.ts) := by
  simp [State.arrive, transit, State.now]

/-! ### The layout of a header (R187, R188) -/

theorem State.cellHalf_eq (s : State) (n : CellNo) (off : Nat) :
    s.cellHalf n off = s.cellByte n (off + 1) ++ s.cellByte n off := rfl

theorem State.cellWord_eq (s : State) (n : CellNo) (off : Nat) :
    s.cellWord n off = s.cellByte n (off + 3) ++ s.cellByte n (off + 2) ++ s.cellByte n (off + 1) ++ s.cellByte n off := rfl

theorem State.parcelHeader_lags_length (s : State) (n : CellNo) :
    (s.parcelHeader n).lags.length = min (s.parcelHeader n).redundant 5 := by
  simp [State.parcelHeader]

theorem State.parcelHeader_lags_get (s : State) (n : CellNo) {j : Nat} (hj : j < min (s.parcelHeader n).redundant 5) :
    (s.parcelHeader n).lags[j]? = some (s.cellByte n (11 + j)).toNat := by
  have hr : (List.range (min (s.parcelHeader n).redundant 5))[j]? = some j := List.getElem?_range hj
  exact (List.getElem?_map ..).trans (congrArg _ hr)

/-! ### The blocks of a parcel (R28) -/

theorem ParcelHeader.blocks_length (h : ParcelHeader) : h.blocks.length = h.primary + h.redundant := by
  simp [ParcelHeader.blocks]

theorem ParcelHeader.blocks_primary (h : ParcelHeader) {k : Nat} (hk : k < h.primary) :
    h.blocks[k]? = some { index := k, origin := .primary, ts := h.ts + BitVec.ofNat 32 (80 * k) } := by
  unfold ParcelHeader.blocks
  rw [List.getElem?_append_left (by simpa using hk)]
  simp [hk]

theorem ParcelHeader.blocks_redundant (h : ParcelHeader) {j lag : Nat} (hj : j < h.redundant) (hlag : h.lags[j]? = some lag) :
    h.blocks[h.primary + j]? = some
      { index := h.primary + j, origin := .redundant, ts := h.ts - BitVec.ofNat 32 (80 * lag) } := by
  unfold ParcelHeader.blocks
  rw [List.getElem?_append_right (by simp)]
  simp [hj, hlag]

/-! ### The obligation -/

/-- Settles O13: the tests by the equations of the validation, a refusal by read after write, the arrival time by what each step of an
arrival leaves of the previous transit, the layout and the blocks by the header's own equations. -/
theorem parcelValidationOrder : Obligations.ParcelValidationOrder := by
  refine ⟨fun s n => ⟨fun hch => State.dispatchParcel_of_error (State.validateParcel_badChannel hch), fun ch hch =>
      ⟨fun hc => State.dispatchParcel_of_error (State.validateParcel_closed hch hc),
        fun ho hcod => State.dispatchParcel_of_error (State.validateParcel_badCoding hch ho hcod),
        fun coding ho hcod => ?tests⟩⟩,
    fun s n reason hm hk => ?refusal, State.arrive_prevTransit, fun s n => ?layout, fun h => ?blocks,
    rfl, rfl, rfl, fun i => ⟨rfl, rfl, rfl⟩⟩
  case tests =>
    have htests := s.dispatchParcel_open n hch ho hcod
    refine ⟨fun hcount => by rw [htests, if_pos hcount], fun hp hcap => ?_⟩
    have hcount : ¬ ((s.parcelHeader n).primary = 0 ∨
        coding.capacity < (s.parcelHeader n).primary + (s.parcelHeader n).redundant) :=
      not_or.mpr ⟨hp, Nat.not_lt.mpr hcap⟩
    rw [if_neg hcount] at htests
    refine ⟨fun hlag => by rw [htests, if_pos hlag], fun hlags => ?_⟩
    rw [htests, if_neg]
    rintro ⟨l, hl, hbad⟩
    have := hlags l hl
    omega
  case refusal =>
    exact ⟨rfl, s.refuseCell_reason n reason hm, s.refuseCell_stamp n reason hm, s.refuseCell_isKept n reason hk,
      s.refuseCell_ready n reason, fun a hstamp hreason => s.refuseCell_byteAt n reason hm hstamp hreason⟩
  case layout =>
    refine ⟨fun off => ⟨rfl, s.cellHalf_eq n off, s.cellWord_eq n off⟩, rfl, rfl, rfl, s.cellWord_eq n 4, rfl,
      s.parcelHeader_lags_length n, fun j hj => s.parcelHeader_lags_get n hj, fun coding => ?_⟩
    cases coding <;> exact codingOf_eq_some_iff (s.cellByte n 1) _
  case blocks =>
    exact ⟨h.blocks_length, fun k hk => h.blocks_primary hk, fun j lag hj hlag => h.blocks_redundant hj hlag⟩

end Sys2Proof.Machine

/-! ## The proof of O15: the rounded distance on the grid (R49) and the class it gives (R34) -/

namespace Sys2Proof.Machine

/-! ### A word difference as a signed integer, and the model's clamp -/

/-- A difference of words is a 32-bit signed quantity (R48, R52). -/
theorem toInt_mem_word (x : Word) : -2147483648 ≤ x.toInt ∧ x.toInt ≤ 2147483647 := by
  have hlow : -2 ^ 31 ≤ x.toInt := BitVec.le_toInt x
  have hhigh : x.toInt < 2 ^ 31 := BitVec.toInt_lt
  omega

theorem clampNat_of_lt {v lo : Nat} (hi : Nat) (h : v < lo) : clampNat v lo hi = lo := if_pos h

theorem clampNat_of_mem {v lo hi : Nat} (hlo : lo ≤ v) (hhi : v ≤ hi) : clampNat v lo hi = v := by
  unfold clampNat
  rw [if_neg (Nat.not_lt.mpr hlo), if_neg (Nat.not_lt.mpr hhi)]

theorem clampNat_of_gt {v lo hi : Nat} (h : lo ≤ hi) (hhi : hi < v) : clampNat v lo hi = hi := by
  unfold clampNat
  rw [if_neg (Nat.not_lt.mpr (h.trans hhi.le)), if_pos hhi]

/-- Where the limits are in order, the clamp is the library's one. -/
theorem clampNat_eq_max_min {v lo hi : Nat} (h : lo ≤ hi) : clampNat v lo hi = max lo (min hi v) := by
  rcases lt_or_ge v lo with hlo | hlo
  · rw [clampNat_of_lt hi hlo, max_eq_left (min_le_right hi v |>.trans hlo.le)]
  · rcases lt_or_ge hi v with hhi | hhi
    · rw [clampNat_of_gt h hhi, min_eq_left hhi.le, max_eq_right h]
    · rw [clampNat_of_mem hlo hhi, min_eq_right hhi, max_eq_right hlo]

/-! ### The rounded distance -/

theorem roundedDistance_of_down {d : Int} (h : d % 80 ≤ 40) : roundedDistance d = d - d % 80 := if_pos h

theorem roundedDistance_of_up {d : Int} (h : 41 ≤ d % 80) : roundedDistance d = d + 80 - d % 80 :=
  if_neg (by unfold gridRemainder; omega)

theorem roundedDistance_dvd (d : Int) : 80 ∣ roundedDistance d := by
  rcases lt_or_ge 40 (d % 80) with h | h
  · rw [roundedDistance_of_up h]
    omega
  · rw [roundedDistance_of_down h]
    omega

/-- Rounding moves down by at most 40 and up by at most 39. -/
theorem roundedDistance_near (d : Int) : d - 40 ≤ roundedDistance d ∧ roundedDistance d ≤ d + 39 := by
  rcases lt_or_ge 40 (d % 80) with h | h
  · rw [roundedDistance_of_up h]
    omega
  · rw [roundedDistance_of_down h]
    omega

/-- The raw distances that round to a grid point are the 80 from 39 before it to 40 past it. -/
theorem roundedDistance_eq_iff (d k : Int) : roundedDistance d = 80 * k ↔ 80 * k - 39 ≤ d ∧ d ≤ 80 * k + 40 := by
  obtain ⟨m, hm⟩ := roundedDistance_dvd d
  have hnear := roundedDistance_near d
  omega

/-! ### The class of a rounded distance (R34) -/

theorem classOf_of_late {d' : Int} (h : d' < 0) : classOf d' = .late := if_pos h

theorem classOf_of_placeable {d' : Int} (h0 : 0 ≤ d') (h : d' < 2560) : classOf d' = .placeable := by
  unfold classOf
  rw [if_neg (Int.not_lt.mpr h0), if_pos h]

theorem classOf_of_early {d' : Int} (h : 2560 ≤ d') : classOf d' = .early := by
  unfold classOf
  rw [if_neg (by omega), if_neg (Int.not_lt.mpr h)]

/-- A raw distance in the reach of one of the 32 slots is placed there. -/
theorem placeable_of_slot {d slot : Int} (h0 : 0 ≤ slot) (h31 : slot ≤ 31) (hlow : 80 * slot - 39 ≤ d)
    (hhigh : d ≤ 80 * slot + 40) : roundedDistance d = 80 * slot ∧ classOf (roundedDistance d) = .placeable := by
  have hslot := (roundedDistance_eq_iff d slot).mpr ⟨hlow, hhigh⟩
  exact ⟨hslot, by rw [hslot]; exact classOf_of_placeable (by omega) (by omega)⟩

/-- Settles O15: the rounded distance is the one multiple of 80 within -40..39 of the raw distance, which bounds it and gives its class. -/
theorem roundingMovesToTheGrid : Obligations.RoundingMovesToTheGrid := by
  intro t cursor d r d'
  have hword : -2147483648 ≤ d ∧ d ≤ 2147483647 := toInt_mem_word (t - cursor)
  have hgrid : 80 ∣ d' := roundedDistance_dvd d
  obtain ⟨hlow, hhigh⟩ : d - 40 ≤ d' ∧ d' ≤ d + 39 := roundedDistance_near d
  have hdown : r ≤ 40 → d' = d - r := roundedDistance_of_down
  have hup : 41 ≤ r → d' = d + 80 - r := roundedDistance_of_up
  have hlate : d ≤ -40 → d' ≤ -80 := by omega
  have hearly : 2521 ≤ d → 2560 ≤ d' := by omega
  refine ⟨by omega, fun _ => hdown, hup, hgrid, hlow, hhigh, by omega, by omega, ?late, ?nearest, ?slots, ?early⟩
  case late => exact fun h => ⟨hlate h, classOf_of_late (by have := hlate h; omega)⟩
  case nearest => exact fun h h' => placeable_of_slot (slot := 0) (by omega) (by omega) h h'
  case slots => exact fun slot h1 h31 h h' => placeable_of_slot (by omega) h31 h h'
  case early => exact fun h => ⟨hearly h, classOf_of_early (hearly h)⟩

end Sys2Proof.Machine

/-! ## The proof of O16: the jitter figure (R52, R53), the target (R55) and the steady frames (R56) -/

namespace Sys2Proof.Machine

/-! ### The jitter figure -/

/-- What the decay leaves of a figure never falls as the figure rises. -/
theorem jitter_decay_mono {x y : Nat} (h : x ≤ y) : x - (x + 8) / 16 ≤ y - (y + 8) / 16 := by
  omega

/-- 64,000 is the fixed point of the update under the largest step, 4,000. -/
theorem jitterNext_le {j a : Nat} (hj : j ≤ 64000) (ha : a ≤ 4000) : jitterNext j a ≤ 64000 := by
  unfold jitterNext
  omega

theorem jitterNext_zero_lt {j : Nat} (h : 8 ≤ j) : jitterNext j 0 < j := by
  unfold jitterNext
  omega

theorem jitterNext_zero_of_le {j : Nat} (h : j ≤ 7) : jitterNext j 0 = j := by
  unfold jitterNext
  omega

theorem jitterNext_zero_pos {j : Nat} (h : 0 < j) : 0 < jitterNext j 0 := by
  unfold jitterNext
  omega

/-- Without deviation a figure falls by at least 1 at each update until it is 7 or less, and never to 0. -/
theorem repeat_jitterNext_zero_bounds {j : Nat} (hj : 0 < j) (m : Nat) :
    1 ≤ Nat.repeat (fun x => jitterNext x 0) m j ∧ Nat.repeat (fun x => jitterNext x 0) m j ≤ max 7 (j - m) := by
  induction m with
  | zero => exact ⟨hj, le_max_right 7 j⟩
  | succ m ih =>
    obtain ⟨hpos, hle⟩ := ih
    show 1 ≤ jitterNext _ 0 ∧ jitterNext _ 0 ≤ _
    generalize Nat.repeat (fun x => jitterNext x 0) m j = x at hpos hle ⊢
    refine ⟨jitterNext_zero_pos hpos, ?_⟩
    rcases lt_or_ge 7 x with h | h
    · have := jitterNext_zero_lt h
      omega
    · rw [jitterNext_zero_of_le h]
      omega

/-! ### The figure through a close (R27) -/

@[simp] theorem State.closeCapture_chan (s : State) (ch : LineNo) : (s.closeCapture ch).chan = s.chan := by
  unfold State.closeCapture
  dsimp only
  split <;> rfl

/-- A close leaves of its channel all but the state, the list, the hold count, the excess run and trim pending (R27). -/
theorem State.closeChannel_chan_get (s : State) (ch : LineNo) :
    (s.closeChannel ch).chan.get ch =
      { s.chan.get ch with state := .closed, list := [], hold := 0, excess := 0, trim := false } := by
  simp [State.closeChannel]

/-! ### The target and the steady frames -/

theorem targetOf_eq {p : OpenParams} (h : p.minFrames ≤ p.maxFrames) (j16 : Nat) :
    targetOf p j16 = max p.minFrames (min p.maxFrames (p.baseFrames + (3 * j16 + 1279) / 1280)) :=
  clampNat_eq_max_min h

/-- An explicit count is brought into target..30, and reported changed exactly when that moves it. -/
theorem steadyFramesOf_some {target margin v w : Nat} (h : clampNat v target 30 = w) :
    steadyFramesOf target margin (some v) = (w, v != w) := by
  subst h
  rfl

/-- Settles O16: the figure's bounds and its decay by the update's own arithmetic, the close by what it leaves of the channel, the target
and the steady frames by the clamp. -/
theorem jitterAndTargetFollowTheirFormulas : Obligations.JitterAndTargetFollowTheirFormulas := by
  refine ⟨⟨fun t tPrev => ⟨rfl, toInt_mem_word (t - tPrev)⟩, fun _ _ _ => rfl, fun _ _ => jitter_decay_mono,
      fun _ _ => jitterNext_le, rfl, fun _ => jitterNext_zero_lt, fun _ => jitterNext_zero_of_le, ?decay,
      fun _ => rfl, rfl, fun s ch => by rw [s.closeChannel_chan_get ch]⟩, ?target, fun _ _ => rfl, ?explicit⟩
  case decay =>
    intro j hj
    refine ⟨j, fun m hm => ?_⟩
    have hbounds := repeat_jitterNext_zero_bounds hj m
    rwa [Nat.sub_eq_zero_of_le hm, Nat.max_zero] at hbounds
  case target =>
    intro p j16 h
    exact ⟨(3 * j16 + 1279) / 1280, by omega, by omega, targetOf_eq h j16⟩
  case explicit =>
    intro target margin v htarget
    refine ⟨fun hv => ?below, fun hlo hhi => ?within, fun hv => ?above⟩
    case below => simp [steadyFramesOf_some (clampNat_of_lt 30 hv), hv.ne]
    case within => simp [steadyFramesOf_some (clampNat_of_mem hlo hhi)]
    case above => simp [steadyFramesOf_some (clampNat_of_gt htarget hv), hv.ne']

end Sys2Proof.Machine

/-! ## The proof of O23: settling and depth control (R66, R67), and the trim step before the ordinary boundary (R62) -/

namespace Sys2Proof.Machine

/-! ### Depth control, an equation per branch (R67) -/

section DepthControl

variable (c : Channel)

theorem Channel.depthControl_of_steady (hm : c.mode = .steady) : c.depthControl = c := if_pos hm

theorem Channel.depthControl_of_excess (hm : c.mode = .speech) (hs : c.state = .flowing) (hl : c.target + 3 ≤ c.list.length) :
    c.depthControl = if 19 ≤ c.excess then { c with excess := 0, trim := true } else { c with excess := c.excess + 1 } := by
  simp [Channel.depthControl, hm, hs, hl]

theorem Channel.depthControl_of_no_excess (hm : c.mode = .speech) (h : c.state ≠ .flowing ∨ c.list.length < c.target + 3) :
    c.depthControl = { c with excess := 0 } := by
  have hno : ¬ (c.state = .flowing ∧ c.target + 3 ≤ c.list.length) := fun ⟨hs, hl⟩ => h.elim (· hs) hl.not_gt
  simp [Channel.depthControl, hm, hno]

end DepthControl

/-- The record that settling hands to depth control: the cursor 80 on, and GAP with no entry left (R66). -/
theorem Channel.settle_eq (c : Channel) :
    c.settle = Channel.depthControl { c with cursor := c.cursor + 80, state := if c.list = [] then .gap else c.state } := by
  simp [Channel.settle]

/-! ### The trim step (R62) -/

theorem State.trimStep_of_no_entry {s : State} {ch : LineNo} (h : ∀ e ∈ (s.chan.get ch).list, e.ts ≠ (s.chan.get ch).cursor) :
    s.trimStep ch = s.setChan ch { s.chan.get ch with cursor := (s.chan.get ch).cursor + 80, trim := false } := by
  have hnone : (s.chan.get ch).list.find? (·.ts == (s.chan.get ch).cursor) = none :=
    List.find?_eq_none.mpr fun e he => by simpa using h e he
  simp only [State.trimStep, hnone]

theorem State.trimStep_of_entry {s : State} {ch : LineNo} {e : Entry}
    (h : (s.chan.get ch).list.find? (·.ts == (s.chan.get ch).cursor) = some e) :
    s.trimStep ch = (s.dropRef e.cell).setChan ch (({ s.chan.get ch with
      cursor := (s.chan.get ch).cursor + 80
      trim := false
      list := (s.chan.get ch).list.eraseP (·.ts == (s.chan.get ch).cursor) } : Channel).bump .trimmedFrames) := by
  simp only [State.trimStep, h, State.dropRef_setChan]

section TrimStep

variable (s : State) (ch : LineNo)

/-- A trim step leaves the channel's state and hold as they are and no trim pending. -/
theorem State.trimStep_chan_get :
    ((s.trimStep ch).chan.get ch).state = (s.chan.get ch).state ∧ ((s.trimStep ch).chan.get ch).hold = (s.chan.get ch).hold ∧
    ((s.trimStep ch).chan.get ch).trim = false := by
  simp only [State.trimStep]
  split <;> simp

@[simp] theorem State.trimStep_clock : (s.trimStep ch).clock = s.clock := by
  simp only [State.trimStep]
  split <;> simp

@[simp] theorem State.trimStep_due : (s.trimStep ch).due = s.due := by
  simp only [State.trimStep]
  split <;> simp

/-- A trim step does not look at what is due. -/
theorem State.trimStep_undue (e : Event) : (s.undue e).trimStep ch = (s.trimStep ch).undue e := by
  cases hfind : (s.chan.get ch).list.find? (·.ts == (s.chan.get ch).cursor) with
  | none => simp only [State.trimStep, State.undue_chan, hfind]; rfl
  | some entry =>
    simp only [State.trimStep, State.undue_chan, hfind]
    exact State.dropRef_undue (s.setChan ch _) e entry.cell

end TrimStep

/-! ### A frame boundary with a trim pending (R59, R62) -/

section Boundary

variable {s : State} {ch : LineNo}

theorem exec_frameBoundary_of_canTake (ht : s.canTake (.frame ch) = true) :
    exec (.frameBoundary ch) s = .next ((s.undue (.frame ch)).playBoundary ch) :=
  congrArg Host.Outcome.next (s.takeEvent_taken (.frame ch) _ ht)

theorem State.playBoundary_of_playing (hs : (s.chan.get ch).state = .flowing ∨ (s.chan.get ch).state = .gap)
    (hh : (s.chan.get ch).hold = 0) :
    s.playBoundary ch = (if (s.chan.get ch).trim then s.trimStep ch else s).ordinaryBoundary ch := by
  rcases hs with hs | hs <;> simp [State.playBoundary, hs, hh]

/-- With a trim pending and no hold, the boundary is the trim step and then the boundary of the state that leaves: the trim step
leaves the channel playing, with no hold and no trim pending, so the second boundary is the ordinary one. -/
theorem State.playBoundary_of_trim (hs : (s.chan.get ch).state = .flowing ∨ (s.chan.get ch).state = .gap)
    (hh : (s.chan.get ch).hold = 0) (htrim : (s.chan.get ch).trim = true) :
    s.playBoundary ch = (s.trimStep ch).playBoundary ch := by
  obtain ⟨hstate, hhold, hdone⟩ := s.trimStep_chan_get ch
  have htrimmed : (s.trimStep ch).playBoundary ch = (s.trimStep ch).ordinaryBoundary ch := by
    rw [State.playBoundary_of_playing (hstate ▸ hs) (hhold.trans hh), hdone]
    rfl
  rw [State.playBoundary_of_playing hs hh, if_pos htrim, htrimmed]

/-- The same for the command, since a trim step neither takes the event nor makes one due. -/
theorem exec_frameBoundary_of_trim (ht : s.canTake (.frame ch) = true)
    (hs : (s.chan.get ch).state = .flowing ∨ (s.chan.get ch).state = .gap)
    (hh : (s.chan.get ch).hold = 0) (htrim : (s.chan.get ch).trim = true) :
    exec (.frameBoundary ch) s = exec (.frameBoundary ch) (s.trimStep ch) := by
  have htrimmed : (s.trimStep ch).canTake (.frame ch) = true := by simpa [State.canTake] using ht
  have hplay : (s.undue (.frame ch)).playBoundary ch = ((s.undue (.frame ch)).trimStep ch).playBoundary ch :=
    State.playBoundary_of_trim hs hh htrim
  rw [exec_frameBoundary_of_canTake ht, exec_frameBoundary_of_canTake htrimmed, hplay, State.trimStep_undue]

end Boundary

/-- Settles O23: settling by the branches of depth control, the trim step by the equation of the boundary with a trim pending. -/
theorem depthControlAndTrimStep : Obligations.DepthControlAndTrimStep := by
  refine ⟨fun c => ?settling, fun ch s ht => ?boundary⟩
  case settling =>
    intro moved
    have hsettle : c.settle = moved.depthControl := c.settle_eq
    rw [hsettle]
    refine ⟨fun hm => ?steady, fun hm hs hl hx => ?counted, fun hm hs hl hx => ?twentieth, fun hm h => ?reset⟩
    case steady => exact moved.depthControl_of_steady hm
    case counted => exact (moved.depthControl_of_excess hm hs hl).trans (if_neg hx.not_ge)
    case twentieth => exact (moved.depthControl_of_excess hm hs hl).trans (if_pos hx)
    case reset => exact moved.depthControl_of_no_excess hm h
  case boundary =>
    intro c moved hs hh htrim
    refine ⟨fun hnone => ?noEntry, fun e he => ?entry⟩
    case noEntry => rw [exec_frameBoundary_of_trim ht hs hh htrim, State.trimStep_of_no_entry hnone]
    case entry => rw [exec_frameBoundary_of_trim ht hs hh htrim, State.trimStep_of_entry he]

end Sys2Proof.Machine

/-! ## The proof of O29: linear 16 coding (R102) over the internal sample (R97) -/

namespace Sys2Proof.Machine

/-! ### Samples and 16-bit values as signed integers -/

/-- An internal sample is a 14-bit signed quantity (R97). -/
theorem toInt_mem_sample (x : Sample) : -8192 ≤ x.toInt ∧ x.toInt ≤ 8191 := by
  have hlow : -2 ^ 13 ≤ x.toInt := BitVec.le_toInt x
  have hhigh : x.toInt < 2 ^ 13 := BitVec.toInt_lt
  omega

/-- A 16-bit value is a signed quantity in -32768..32767 (R102). -/
theorem toInt_mem_half (v : Half) : -32768 ≤ v.toInt ∧ v.toInt ≤ 32767 := by
  have hlow : -2 ^ 15 ≤ v.toInt := BitVec.le_toInt v
  have hhigh : v.toInt < 2 ^ 15 := BitVec.toInt_lt
  omega

/-! ### Coding and decoding -/

/-- Four times a sample fits in 16 bits, so coding loses nothing. -/
theorem encodeLin_toInt (x : Sample) : (encodeLin x).toInt = 4 * x.toInt := by
  have hx := toInt_mem_sample x
  exact BitVec.toInt_ofInt_eq_self (by decide) (by omega) (by omega)

/-- A quarter of a 16-bit value fits in 14 bits, so decoding is its rounding down alone. -/
theorem decodeLin_toInt (v : Half) : (decodeLin v).toInt = v.toInt / 4 := by
  have hv := toInt_mem_half v
  exact BitVec.toInt_ofInt_eq_self (by decide) (by omega) (by omega)

/-- Coding shifts the sample up by two bits. -/
theorem encodeLin_eq_shiftLeft (x : Sample) : encodeLin x = BitVec.ofInt 16 x.toInt <<< 2 := by
  rw [encodeLin, BitVec.ofInt_mul, BitVec.mul_comm]
  exact BitVec.mul_twoPow_eq_shiftLeft _ 2

theorem encodeLin_getLsbD_low (x : Sample) {i : Nat} (hi : i < 2) : (encodeLin x).getLsbD i = false := by
  simp [encodeLin_eq_shiftLeft, hi]

theorem decodeLin_encodeLin (x : Sample) : decodeLin (encodeLin x) = x := by
  apply BitVec.eq_of_toInt_eq
  calc (decodeLin (encodeLin x)).toInt = 4 * x.toInt / 4 := by rw [decodeLin_toInt, encodeLin_toInt]
    _ = x.toInt := Int.mul_ediv_cancel_left _ (by decide)

/-! ### The obligation -/

/-- Settles O29: both directions by the integer each result reads as, the layout of a block by the bytes of a half-word. -/
theorem linearCodingIsExact : Obligations.LinearCodingIsExact := by
  refine ⟨fun x => ?coded, fun v => ?decoded, by decide, by decide, by decide, fun f => rfl, fun s n off i => ?block⟩
  case coded =>
    have hx := toInt_mem_sample x
    exact ⟨encodeLin_toInt x, by omega, by omega, encodeLin_getLsbD_low x (by decide), encodeLin_getLsbD_low x (by decide),
      decodeLin_encodeLin x⟩
  case decoded =>
    have hv := toInt_mem_half v
    rw [decodeLin_toInt]
    omega
  case block => exact congrArg decodeLin (s.cellHalf_eq n (off + 2 * i))

end Sys2Proof.Machine

/-! ## What a command can do: the effects of a command, of a sweep and of an order -/

namespace Sys2Proof.Machine

/-! ### Events -/

/-- An event is left alone, or taken once. -/
theorem State.takeEvent_cases (s : State) (e : Event) (effect : State → State) :
    s.takeEvent e effect = s ∨ s.takeEvent e effect = effect (s.undue e) := by
  cases h : s.canTake e with
  | false => exact .inl (s.takeEvent_left e effect h)
  | true => exact .inr (s.takeEvent_taken e effect h)

/-- What is kept when an event becomes undue and by its effect is kept by the event. -/
theorem State.takeEvent_keeps {P : State → Prop} {s : State} {e : Event} {effect : State → State} (hs : P s)
    (heffect : P (effect (s.undue e))) : P (s.takeEvent e effect) := by
  rcases s.takeEvent_cases e effect with h | h
  · rwa [h]
  · rwa [h]

/-! ### The effects of a command -/

/-- What is left by a host write to exchange memory (R2, R15, R186). -/
def State.hostWrite (s : State) (addr : Nat) (lanes : Lanes) (data : Half) : State :=
  if s.bus.held then s else if s.writeGuarded addr lanes then s.recordGuard addr else s.storeLanes addr lanes data

/-- What is left by a power-on reset (R186). -/
def State.afterPowerOn (s : State) : Option (List Host.Cell) → State
  | none => s.powerOn true s.mem
  | some cells => s.powerOn false (Memory.ofCells cells)

/-- The states a command can leave. The rows that name an expiry or a tick by what it brings about are that event, or nothing (log 4). -/
inductive State.Effect (s : State) : Instr → State → Prop
  | nothing (c : Instr) : State.Effect s c s
  | event (c : Instr) (e : PartEvent) : State.Effect s c (s.partEvent e)
  | passFree (p : LineNo) (hr : s.clock.running = true) : State.Effect s (.grantPass p) s.passFree
  | powerOn (ram : Option (List Host.Cell)) : State.Effect s (.powerOnReset ram) (s.afterPowerOn ram)
  | runctl (c : Instr) (lanes : Lanes) (data : Half)
      (hc : c = .softReset lanes data ∨ c = .run lanes data ∨ c = .guardClear lanes data ∨
        c = .windowWriteDiscarded runctlHalf lanes data) : State.Effect s c (s.writeRunctl lanes data)
  | attnctl (c : Instr) (lanes : Lanes) (data : Half) : State.Effect s c (s.writeAttnctl lanes data)
  | tally (c : Instr) (t : Tally) (after : BitVec 8) : State.Effect s c (s.operateTally t after)
  | hostWrite (half : BitVec 15) (lanes : Lanes) (data : Half) :
      State.Effect s (.hostMemoryWrite half lanes data) (s.hostWrite (2 * half.toNat) lanes data)
  | samplePeriod (line : Four Sample) (hr : s.clock.running = true) :
      State.Effect s (.samplePeriod line) (s.lineSamples line).advanceClock
  | sweep (work : List (List (Four Sample))) (between : List (CellNo × PartEvent)) (ht : s.canTake .sweep = true) :
      State.Effect s (.sweep work between) ((s.undue .sweep).sweepStep work between)

/-- A named expiry or tick is the event, or nothing. -/
theorem State.effect_of_ite (s : State) (c : Instr) (e : PartEvent) (b : Bool) :
    s.Effect c (if b then s.partEvent e else s) := by
  cases b with
  | true => exact .event c e
  | false => exact .nothing c

/-- Every command has one of the effects. -/
theorem exec_effect {c : Instr} {s t : State} (h : exec c s = .next t) : s.Effect c t := by
  cases c with
  | powerOnReset ram =>
    obtain rfl := Host.Outcome.next.inj h
    cases ram with
    | none => exact .powerOn none
    | some cells => exact .powerOn (some cells)
  | softReset lanes data => obtain rfl := Host.Outcome.next.inj h; exact .runctl _ lanes data (.inl rfl)
  | run lanes data => obtain rfl := Host.Outcome.next.inj h; exact .runctl _ lanes data (.inr (.inl rfl))
  | guardClear lanes data => obtain rfl := Host.Outcome.next.inj h; exact .runctl _ lanes data (.inr (.inr (.inl rfl)))
  | attnctlWrite lanes data => obtain rfl := Host.Outcome.next.inj h; exact .attnctl _ lanes data
  | peek t => obtain rfl := Host.Outcome.next.inj h; exact .tally _ t _
  | add t => obtain rfl := Host.Outcome.next.inj h; exact .tally _ t _
  | take t => obtain rfl := Host.Outcome.next.inj h; exact .tally _ t _
  | clear t => obtain rfl := Host.Outcome.next.inj h; exact .tally _ t _
  | windowWriteDiscarded half lanes data =>
    obtain rfl := Host.Outcome.next.inj h
    unfold State.writeWindow
    split
    · next hh => exact .runctl _ lanes data (.inr (.inr (.inr (by rw [hh]))))
    · split
      · exact .attnctl _ lanes data
      · exact .nothing _
  | hostMemoryWrite half lanes data => obtain rfl := Host.Outcome.next.inj h; exact .hostWrite half lanes data
  | sweep work between =>
    obtain rfl := Host.Outcome.next.inj h
    cases ht : s.canTake .sweep with
    | false => rw [State.takeEvent_left _ _ _ ht]; exact .nothing _
    | true => rw [State.takeEvent_taken _ _ _ ht]; exact .sweep work between ht
  | frameBoundary ch => obtain rfl := Host.Outcome.next.inj h; exact .event _ (.frameBoundary ch)
  | farFrame p => obtain rfl := Host.Outcome.next.inj h; exact .event _ (.farFrame p)
  | captureEvent ch => obtain rfl := Host.Outcome.next.inj h; exact .event _ (.captureEvent ch)
  | lineVerdict p => obtain rfl := Host.Outcome.next.inj h; exact .event _ (.lineVerdict p)
  | toneTrigger ch cause => obtain rfl := Host.Outcome.next.inj h; exact .event _ (.toneTrigger ch cause)
  | lineScan p hook trip => obtain rfl := Host.Outcome.next.inj h; exact .event _ (.lineScan p hook trip)
  | portTimerExpiry p => obtain rfl := Host.Outcome.next.inj h; exact .event _ (.portTimer p)
  | cleared p => obtain rfl := Host.Outcome.next.inj h; exact s.effect_of_ite _ (.portTimer p) _
  | digitGapExpiry p => obtain rfl := Host.Outcome.next.inj h; exact s.effect_of_ite _ (.portTimer p) _
  | cadenceTick p => obtain rfl := Host.Outcome.next.inj h; exact .event _ (.cadenceTick p)
  | cadenceAdvance p => obtain rfl := Host.Outcome.next.inj h; exact s.effect_of_ite _ (.cadenceTick p) _
  | grantPass p =>
    obtain rfl := Host.Outcome.next.inj h
    split
    · exact .event _ (.cadenceTick p)
    · split
      · next hr => exact .passFree p hr
      · exact .nothing _
  | ringDriveToggle p => obtain rfl := Host.Outcome.next.inj h; exact .event _ (.ringDrive p)
  | identStart p => obtain rfl := Host.Outcome.next.inj h; exact s.effect_of_ite _ (.cadenceTick p) _
  | identSent p => obtain rfl := Host.Outcome.next.inj h; exact s.effect_of_ite _ (.cadenceTick p) _
  | identTailEnd p => obtain rfl := Host.Outcome.next.inj h; exact s.effect_of_ite _ (.cadenceTick p) _
  | markWriterBoundary => obtain rfl := Host.Outcome.next.inj h; exact .event _ .markWriter
  | samplePeriod line =>
    obtain rfl := Host.Outcome.next.inj h
    split
    · next hr => exact .samplePeriod line hr
    · exact .nothing _

/-- A step takes no command, or has an effect of the command at the front of the queue. -/
theorem step_effect {s t : State} (h : step s = .next t) :
    t = s ∨ ∃ c rest, s.pending = c :: rest ∧ ({ s with pending := rest } : State).Effect c t := by
  unfold step at h
  cases hp : s.pending with
  | nil => rw [hp] at h; exact .inl (Host.Outcome.next.inj h).symm
  | cons c rest => rw [hp] at h; exact .inr ⟨c, rest, rfl, exec_effect h⟩

/-- What is kept when the queue changes and by every effect of a command is kept by every step. -/
theorem step_keeps {P : State → Prop} (hqueue : ∀ (s : State) (q : List Instr), P s → P { s with pending := q })
    (heffect : ∀ (c : Instr) (s t : State), s.Effect c t → P s → P t) {s t : State} (hs : P s) (h : step s = .next t) : P t := by
  rcases step_effect h with rfl | ⟨c, rest, -, he⟩
  · exact hs
  · exact heffect c _ t he (hqueue s rest hs)

/-! ### The parts of a sweep (R8) -/

/-- What is kept by every event is kept by the events that fall before a stamp is examined. -/
theorem State.eventsBefore_keeps {P : State → Prop} (hevent : ∀ (s : State) (e : PartEvent), P s → P (s.partEvent e))
    (between : List (CellNo × PartEvent)) (n : CellNo) : ∀ s : State, P s → P (s.eventsBefore between n) := by
  unfold State.eventsBefore
  induction between with
  | nil => exact fun s hs => hs
  | cons x xs ih =>
    intro s hs
    rw [List.foldl_cons]
    apply ih
    split
    · exact hevent s x.2 hs
    · exact hs

/-- What is kept by every event, clash and take is kept by the examination of the stamps. -/
theorem State.foldl_examine_keeps {P : State → Prop} (between : List (CellNo × PartEvent))
    (hevent : ∀ (s : State) (e : PartEvent), P s → P (s.partEvent e))
    (hclash : ∀ (s : State) (n : CellNo) (k : Kept), s.keptAt n.val = some k → P s → P (s.clash n k (s.stamp n)))
    (htake : ∀ (s : State) (n : CellNo), isPosting (s.stamp n) = true → s.keptAt n.val = none → P s →
      P (s.takeCell n (s.stamp n)))
    (ns : List CellNo) : ∀ acc : State × Bool, P acc.1 → P (ns.foldl (State.examine between) acc).1 := by
  induction ns with
  | nil => exact fun acc h => h
  | cons n ns ih =>
    intro acc h
    rw [List.foldl_cons]
    apply ih
    have hu := State.eventsBefore_keeps hevent between n acc.1 h
    unfold State.examine
    dsimp only
    split
    · next hposting =>
      split
      · next k hk => exact hclash _ n k hk hu
      · next hk => exact htake _ n hposting hk hu
    · exact hu

/-- What is kept by every event, clash and take, when the work of a sweep is set and when POSTS is cleared is kept by a sweep. -/
theorem State.sweepStep_keeps {P : State → Prop} (work : List (List (Four Sample))) (between : List (CellNo × PartEvent))
    (hwork : ∀ (s : State) w, P s → P { s with clock := { s.clock with work := w } })
    (hposts : ∀ s : State, P s → P (s.setTally .posts 0))
    (hevent : ∀ (s : State) (e : PartEvent), P s → P (s.partEvent e))
    (hclash : ∀ (s : State) (n : CellNo) (k : Kept), s.keptAt n.val = some k → P s → P (s.clash n k (s.stamp n)))
    (htake : ∀ (s : State) (n : CellNo), isPosting (s.stamp n) = true → s.keptAt n.val = none → P s →
      P (s.takeCell n (s.stamp n)))
    (s : State) (hs : P s) : P (s.sweepStep work between) := by
  unfold State.sweepStep
  split
  · exact hs
  · have hall := State.foldl_examine_keeps between hevent hclash htake (List.finRange 126)
      ({ s with clock := { s.clock with work := work } }, false) (hwork s work hs)
    apply hwork
    unfold State.sweepAll
    dsimp only
    split
    · exact hall
    · exact hposts _ hall

/-! ### The states an order can leave (R172 to R174) -/

/-- What an order of entry k of sheet `n` of `count` entries can leave: the state as it was, or one change of one order. -/
inductive State.OrderRun (s : State) (n : CellNo) (count : Nat) : State → Prop
  | refused : State.OrderRun s n count s
  | portUp (p : LineNo) (h : (s.port.get p).state = .down) : State.OrderRun s n count (s.setPort p { s.port.get p with
      state := .idle, filtered := false, differing := 0, breakCount := none, gapCount := none, pulses := 0 })
  | portDown (p : LineNo) : State.OrderRun s n count (s.orderPortDown p).1
  | polarity (p : LineNo) (v : Polarity) : State.OrderRun s n count (s.setPort p { s.port.get p with polarity := v })
  | timing (p : LineNo) (f : Nat) (t : BreakTiming) :
      State.OrderRun s n count (s.setPort p { s.port.get p with filter := f, ordered := t })
  | ring (p : LineNo) (run : CadenceRun) (freq : Nat) (body : List Byte) (h : (s.port.get p).state = .idle) :
      State.OrderRun s n count (s.startRing p run freq body)
  | ringStop (p : LineNo) (h : (s.port.get p).state = .ringing) : State.OrderRun s n count (s.stopRing p)
  | tone (p : LineNo) (index cadence : Nat) (r : ToneRecord) (run : CadenceRun) (h : (s.port.get p).state = .offhook) :
      State.OrderRun s n count (s.startTone p index cadence r run)
  | toneStop (p : LineNo) : State.OrderRun s n count (s.endTone p)
  | channelOpen (ch : LineNo) (raw : OpenParams) (h : (s.chan.get ch).state = .closed) :
      State.OrderRun s n count (s.openChannel ch raw.inRange)
  | channelClose (ch : LineNo) (h : (s.chan.get ch).state ≠ .closed) : State.OrderRun s n count (s.closeChannel ch)
  | enterSteady (ch : LineNo) (explicit : Option Nat) (h : (s.chan.get ch).state ≠ .closed) (hm : (s.chan.get ch).mode = .speech) :
      State.OrderRun s n count (s.enterSteady ch explicit causeOrder).1
  | reapplySteady (ch : LineNo) (explicit : Option Nat) (h : (s.chan.get ch).state ≠ .closed)
      (hm : (s.chan.get ch).mode = .steady) : State.OrderRun s n count (s.reapplySteady ch explicit).1
  | returnToSpeech (ch : LineNo) (h : (s.chan.get ch).state ≠ .closed) (hm : (s.chan.get ch).mode = .steady) :
      State.OrderRun s n count (s.returnToSpeech ch)
  | snapshot (ch : LineNo) (off : Nat) (clear : Bool) (hlow : 32 + 16 * count ≤ off) (hhigh : off + 64 ≤ 512) :
      State.OrderRun s n count (if clear then (s.putCell n off (s.chan.get ch).snapshot).setChan ch (s.chan.get ch).clearCounters
        else s.putCell n off (s.chan.get ch).snapshot)
  | reserve (v : Nat) : State.OrderRun s n count { s with ex := { s.ex with reserve := min v 4 } }

section Orders

variable (s : State) (n : CellNo) (count : Nat)

theorem State.orderPortUp_run (p : LineNo) : s.OrderRun n count (s.orderPortUp p).1 := by
  unfold State.orderPortUp
  dsimp only
  split
  · next h => exact .portUp p h
  · exact .refused

theorem State.orderSetPolarity_run (p : LineNo) (value : Byte) : s.OrderRun n count (s.orderSetPolarity p value).1 := by
  unfold State.orderSetPolarity
  dsimp only
  split
  · exact .refused
  · split
    · exact .refused
    · exact .polarity p _

theorem State.orderSetHookTiming_run (p : LineNo) (filter : Nat) (t : BreakTiming) :
    s.OrderRun n count (s.orderSetHookTiming p filter t).1 := by
  unfold State.orderSetHookTiming
  dsimp only
  split
  · exact .timing p _ _
  · exact .refused

theorem State.orderRing_run (p : LineNo) (m : CellNo) (cadence freq len off : Nat) :
    s.OrderRun n count (s.orderRing p m count cadence freq len off).1 := by
  unfold State.orderRing
  split
  · exact .refused
  · next h =>
    split
    · exact .refused
    · split
      · exact .refused
      · split
        · exact .refused
        · exact .ring p _ _ _ (not_ne_iff.mp h)

theorem State.orderRingStop_run (p : LineNo) : s.OrderRun n count (s.orderRingStop p).1 := by
  unfold State.orderRingStop
  split
  · next h => exact .ringStop p h
  · exact .refused

theorem State.orderTone_run (p : LineNo) (index : Nat) (override : Option Nat) :
    s.OrderRun n count (s.orderTone p index override).1 := by
  unfold State.orderTone
  dsimp only
  split
  · exact .refused
  · next h =>
    split
    · exact .refused
    · split
      · exact .refused
      · split
        · exact .refused
        · exact .tone p index _ _ _ (not_ne_iff.mp h)

theorem State.orderToneStop_run (p : LineNo) : s.OrderRun n count (s.orderToneStop p).1 := by
  unfold State.orderToneStop
  split
  · exact .toneStop p
  · exact .refused

theorem State.orderChannelOpen_run (ch : LineNo) (m : CellNo) (off : Nat) :
    s.OrderRun n count (s.orderChannelOpen ch m count off).1 := by
  unfold State.orderChannelOpen
  dsimp only
  split
  · exact .refused
  · next h =>
    split
    · exact .refused
    · split
      · exact .refused
      · exact .channelOpen ch _ (not_ne_iff.mp h)

theorem State.orderChannelClose_run (ch : LineNo) : s.OrderRun n count (s.orderChannelClose ch).1 := by
  unfold State.orderChannelClose
  split
  · exact .refused
  · next h => exact .channelClose ch h

theorem State.orderChannelSteady_run (ch : LineNo) (explicit : Option Nat) :
    s.OrderRun n count (s.orderChannelSteady ch explicit).1 := by
  unfold State.orderChannelSteady
  dsimp only
  split
  · exact .refused
  · next h =>
    cases hm : (s.chan.get ch).mode with
    | speech => exact .enterSteady ch explicit h hm
    | steady => exact .reapplySteady ch explicit h hm

theorem State.orderChannelSpeech_run (ch : LineNo) : s.OrderRun n count (s.orderChannelSpeech ch).1 := by
  unfold State.orderChannelSpeech
  dsimp only
  split
  · exact .refused
  · next h =>
    cases hm : (s.chan.get ch).mode with
    | speech => exact .refused
    | steady => exact .returnToSpeech ch h hm

theorem State.orderSnapshot_run (ch : LineNo) (off : Nat) (clear : Bool) :
    s.OrderRun n count (s.orderSnapshot ch n count off clear).1 := by
  unfold State.orderSnapshot
  split
  · exact .refused
  · next h =>
    have harea : 32 + 16 * count ≤ off ∧ off + 64 ≤ 512 := by simpa [inAnnex] using h
    exact .snapshot ch off clear harea.1 harea.2

/-- An order with a target runs on that line, or is refused. -/
theorem State.withTarget_run (t : Nat) {order : LineNo → State × Answer} (h : ∀ p, s.OrderRun n count (order p).1) :
    s.OrderRun n count (s.withTarget t order).1 := by
  unfold State.withTarget
  split
  · exact .refused
  · exact h _

/-- Every entry's order leaves one of these states. -/
theorem State.runOrder_run (k : Nat) : s.OrderRun n count (s.runOrder n count k).1 := by
  unfold State.runOrder
  dsimp only
  split
  · exact s.withTarget_run n count _ (s.orderPortUp_run n count)
  · exact s.withTarget_run n count _ fun p => .portDown p
  · exact s.withTarget_run n count _ fun p => s.orderSetPolarity_run n count p _
  · exact s.withTarget_run n count _ fun p => s.orderSetHookTiming_run n count p _ _
  · exact s.withTarget_run n count _ fun p => s.orderRing_run n count p n _ _ _ _
  · exact s.withTarget_run n count _ (s.orderRingStop_run n count)
  · exact s.withTarget_run n count _ fun p => s.orderTone_run n count p _ _
  · exact s.withTarget_run n count _ (s.orderToneStop_run n count)
  · exact s.withTarget_run n count _ fun ch => s.orderChannelOpen_run n count ch n _
  · exact s.withTarget_run n count _ (s.orderChannelClose_run n count)
  · exact s.withTarget_run n count _ fun ch => s.orderChannelSteady_run n count ch _
  · exact s.withTarget_run n count _ (s.orderChannelSpeech_run n count)
  · exact s.withTarget_run n count _ fun ch => s.orderSnapshot_run n count ch _ _
  · exact .reserve _
  · exact .refused

end Orders

/-- What the sample periods before an entry, the entry's order and its answer byte keep is kept by a run of the entries. -/
theorem State.runEntries_keeps {P : State → Prop} {n : CellNo} {count : Nat} (hwork : ∀ s : State, P s → P s.sweepWork)
    (horder : ∀ s t : State, s.OrderRun n count t → P s → P t)
    (hanswer : ∀ (s : State) (k : Nat) (b : Byte), k < count → P s → P (s.putCell n (32 + 16 * k + 15) [b])) (left : Nat) :
    ∀ (k : Nat) (s : State), k + left ≤ count → P s → P (s.runEntries n count left k) := by
  induction left with
  | zero => exact fun k s _ hs => hs
  | succ left ih =>
    intro k s hk hs
    refine ih (k + 1) _ (by omega) ?_
    unfold State.runEntry
    exact hanswer _ k _ (by omega) (horder _ _ (s.sweepWork.runOrder_run n count k) (hwork s hs))

end Sys2Proof.Machine

/-! ## What the line side can change: ports, rings, identities, tones, verdicts, the arbiter and the due events, and marks given -/

namespace Sys2Proof.Machine

/-! ### The mark writer: a record written, a sheet closed (R176, R179) -/

/-- A mark written as record M of an open sheet, before the sheet is looked at again (R176). -/
def State.recordMark (s : State) (c : CellNo) (m : Mark) : State :=
  { s.putCell c (32 + 16 * s.marks.count) m.record with marks := { s.marks with count := s.marks.count + 1 } }

theorem State.closeSheet_none {s : State} (h : s.marks.sheet = none) : s.closeSheet = s := by
  simp only [State.closeSheet, h]

theorem State.closeSheet_some {s : State} {c : CellNo} (h : s.marks.sheet = some c) :
    s.closeSheet = { (s.putCell c 0 (byteOf s.marks.count :: List.replicate 31 0)).handOver c stampOutMarks with
      marks := { s.marks with sheet := none, count := 0 } } := by
  simp only [State.closeSheet, h]
  rfl

theorem State.closeSheet_sheet (s : State) : s.closeSheet.marks.sheet = none := by
  cases hc : s.marks.sheet with
  | none => rwa [State.closeSheet_none hc]
  | some c => rw [State.closeSheet_some hc]

theorem State.writeMark_none {s : State} (m : Mark) (h : s.marks.sheet = none) : s.writeMark m = s := by
  simp only [State.writeMark, h]

theorem State.writeMark_some {s : State} {c : CellNo} (m : Mark) (h : s.marks.sheet = some c) :
    s.writeMark m = if 27 ≤ s.marks.count then (s.recordMark c m).closeSheet else s.recordMark c m := by
  simp only [State.writeMark, h]
  show (if 28 ≤ s.marks.count + 1 then (s.recordMark c m).closeSheet else s.recordMark c m) = _
  simp only [show 28 ≤ s.marks.count + 1 ↔ 27 ≤ s.marks.count by omega]

theorem Mark.record_length (m : Mark) : m.record.length = 16 := by simp [Mark.record, bytes16, bytes32]

/-! ### The mark writer's own steps: a record written, a sheet opened, the queue and the lost count set (R176 to R179) -/

section MarkWriter

variable {P : State → Prop} (hwrite : ∀ (s : State) (m : Mark), P s → P (s.writeMark m))
  (hopen : ∀ s u : State, s.marks.sheet = none → s.openSheet = some u → P s → P u)
  (htidy : ∀ (s : State) (q : List Mark) (l : Nat), (q.length ≤ 16 ∨ q = s.marks.queue) → (l ≤ 65535 ∨ l = s.marks.lost) → P s →
    P { s with marks := { s.marks with queue := q, lost := l } })

include hwrite in
theorem State.foldl_writeMark_keeps (ms : List Mark) : ∀ s : State, P s → P (ms.foldl State.writeMark s) := by
  induction ms with
  | nil => exact fun s h => h
  | cons m ms ih => exact fun s h => ih _ (hwrite s m h)

include hwrite htidy in
theorem State.fillSheet_keeps (s : State) (h : P s) : P s.fillSheet := by
  unfold State.fillSheet
  dsimp only
  split
  · exact State.foldl_writeMark_keeps hwrite _ _ (htidy _ [] 0 (.inl (Nat.zero_le _)) (.inl (Nat.zero_le _))
      (htidy _ _ 0 (.inr rfl) (.inl (Nat.zero_le _)) (hwrite s s.marksLost h)))
  · exact State.foldl_writeMark_keeps hwrite _ _ (htidy s [] s.marks.lost (.inl (Nat.zero_le _)) (.inr rfl) h)

include hwrite hopen htidy in
/-- What is kept by each step of the mark writer is kept by a mark. -/
theorem State.giveMark_keeps (s : State) (m : Mark) (h : P s) : P (s.giveMark m) := by
  unfold State.giveMark
  split
  · exact hwrite s m h
  · next hnone =>
    split
    · next u hu => exact hwrite _ m (State.fillSheet_keeps hwrite htidy u (hopen s u hnone hu h))
    · split
      · next hq => exact htidy s _ s.marks.lost (.inl (by simpa using hq)) (.inr rfl) h
      · exact htidy s s.marks.queue _ (.inr rfl) (.inl (Nat.min_le_left _ _)) h

include hwrite hopen htidy in
theorem State.markBoundary_keeps (hclose : ∀ s : State, P s → P s.closeSheet) (s : State) (h : P s) : P s.markBoundary := by
  unfold State.markBoundary
  dsimp only
  split
  · exact hclose s h
  · split
    · next u hu => exact State.fillSheet_keeps hwrite htidy u (hopen _ u s.closeSheet_sheet hu (hclose s h))
    · exact hclose s h

end MarkWriter

/-- A sheet opened is the oldest spare cell, claimed in its role, with nothing written in it yet (R177). -/
theorem State.openSheet_eq {s u : State} (h : s.openSheet = some u) : ∃ c rest, s.ex.spare = c :: rest ∧
    u = { s with
      ex := { s.ex with
        spare := rest
        keeping := tablePut s.ex.keeping c.val { role := .markSheet, clash := ((s.keptAt c.val).map Kept.clash).getD false } }
      marks := { s.marks with sheet := some c, count := 0 } } := by
  unfold State.openSheet at h
  cases hc : s.claimMarks with
  | none => rw [hc] at h; cases h
  | some x =>
    obtain ⟨c, v⟩ := x
    rw [hc] at h
    obtain ⟨rest, hs, -, rfl⟩ := State.claim_eq s v 0 .markSheet c hc
    exact ⟨c, rest, hs, (Option.some.inj h).symm⟩

/-! ### Line-side steps -/

/-- Some marks given in turn. -/
def State.giveMarks (s : State) (ms : List Mark) : State := ms.foldl State.giveMark s

theorem State.giveMarks_graft (ms : List Mark) : ∀ s t : State, (s.graft t).giveMarks ms = s.graft (t.giveMarks ms) := by
  unfold State.giveMarks
  induction ms with
  | nil => exact fun s t => rfl
  | cons m ms ih => intro s t; rw [List.foldl_cons, List.foldl_cons, State.giveMark_graft, ih]

/-- A line-side step: memory, the exchange unit and the mark writer change by marks alone; the clock, the bus, the channels, the capture
sides, the queue and the line frames do not change. -/
structure State.LineStep (s t : State) : Prop where
  marked : ∃ ms : List Mark, t = t.graft (s.giveMarks ms)
  clock : t.clock = s.clock
  bus : t.bus = s.bus
  chan : t.chan = s.chan
  cap : t.cap = s.cap
  pending : t.pending = s.pending
  lineFrame : ∀ p, (t.port.get p).lineFrame = (s.port.get p).lineFrame

theorem State.giveMarks_clock (ms : List Mark) : ∀ s : State, (s.giveMarks ms).clock = s.clock := by
  unfold State.giveMarks
  induction ms with
  | nil => exact fun s => rfl
  | cons m ms ih => intro s; rw [List.foldl_cons, ih, State.giveMark_clock]

/-- Two states between which the bus, the queue and RUNNING do not change, and no scan instant passes. -/
structure State.Aside (s t : State) : Prop where
  bus : t.bus = s.bus
  pending : t.pending = s.pending
  running : t.clock.running = s.clock.running
  octet : t.clock.sc.toNat / 8 = s.clock.sc.toNat / 8

theorem State.Aside.of_clock {s t : State} (hclock : t.clock = s.clock) (hbus : t.bus = s.bus) (hpending : t.pending = s.pending) :
    s.Aside t := ⟨hbus, hpending, by rw [hclock], by rw [hclock]⟩

/-- What a mark keeps, and what does not depend on the line side, is kept by a line-side step. -/
theorem State.LineStep.keeps {P : State → Prop} (hmark : ∀ (s : State) (m : Mark), P s → P (s.giveMark m))
    (hgraft : ∀ s t : State, s.chan = t.chan → s.cap = t.cap → s.bus = t.bus → s.pending = t.pending → P t → P (s.graft t))
    {s t : State} (h : s.LineStep t) (hs : P s) : P t := by
  obtain ⟨ms, hms⟩ := h.marked
  have hall : ∀ (ms : List Mark) (u : State), P u → (u.giveMarks ms).chan = u.chan ∧ (u.giveMarks ms).cap = u.cap ∧
      (u.giveMarks ms).bus = u.bus ∧ (u.giveMarks ms).pending = u.pending ∧ P (u.giveMarks ms) := by
    intro ms
    induction ms with
    | nil => exact fun u hu => ⟨rfl, rfl, rfl, rfl, hu⟩
    | cons m ms ih =>
      intro u hu
      have hnext := ih _ (hmark u m hu)
      rwa [State.giveMark_chan, State.giveMark_cap, State.giveMark_bus, State.giveMark_pending] at hnext
  obtain ⟨hchan, hcap, hbus, hpending, hP⟩ := hall ms s hs
  rw [hms]
  exact hgraft _ _ (h.chan.trans hchan.symm) (h.cap.trans hcap.symm) (h.bus.trans hbus.symm) (h.pending.trans hpending.symm) hP

theorem State.LineStep.refl (s : State) : s.LineStep s :=
  ⟨⟨[], rfl⟩, rfl, rfl, rfl, rfl, rfl, fun _ => rfl⟩

theorem State.LineStep.trans {s t u : State} (h : s.LineStep t) (g : t.LineStep u) : s.LineStep u := by
  obtain ⟨ms, hms⟩ := h.marked
  obtain ⟨ns, hns⟩ := g.marked
  have hjoin : u = u.graft (s.giveMarks (ms ++ ns)) := by
    have happ : s.giveMarks (ms ++ ns) = (s.giveMarks ms).giveMarks ns := List.foldl_append
    have ht := State.giveMarks_graft ns t (s.giveMarks ms)
    rw [← hms] at ht
    rw [happ]
    rw [ht] at hns
    exact hns
  exact ⟨⟨ms ++ ns, hjoin⟩, g.clock.trans h.clock, g.bus.trans h.bus, g.chan.trans h.chan, g.cap.trans h.cap,
    g.pending.trans h.pending, fun p => (g.lineFrame p).trans (h.lineFrame p)⟩

section Updates

variable (s : State)

/-- A change of line-side records alone. -/
theorem State.lineStep_of_eq {s t : State}
    (h : t = { s with due := t.due, ring := t.ring, ident := t.ident, arb := t.arb, tone := t.tone, verdict := t.verdict }) :
    s.LineStep t := by
  rw [h]
  exact ⟨⟨[], rfl⟩, rfl, rfl, rfl, rfl, rfl, fun _ => rfl⟩

theorem State.lineStep_setRing (p : LineNo) (r : Ring) : s.LineStep (s.setRing p r) := State.lineStep_of_eq rfl

theorem State.lineStep_setIdent (p : LineNo) (i : Ident) : s.LineStep (s.setIdent p i) := State.lineStep_of_eq rfl

theorem State.lineStep_setTone (p : LineNo) (t : Tone) : s.LineStep (s.setTone p t) := State.lineStep_of_eq rfl

theorem State.lineStep_setVerdict (p : LineNo) (v : Verdict) : s.LineStep (s.setVerdict p v) := State.lineStep_of_eq rfl

theorem State.lineStep_undue (e : Event) : s.LineStep (s.undue e) := State.lineStep_of_eq rfl

theorem State.lineStep_arb (a : Arbiter) : s.LineStep { s with arb := a } := State.lineStep_of_eq rfl

theorem State.lineStep_setGrant (a : Bool) (holder : Option LineNo) : s.LineStep (s.setGrant a holder) := State.lineStep_of_eq rfl

theorem State.lineStep_setPort (p : LineNo) (r : Port) (h : r.lineFrame = (s.port.get p).lineFrame) :
    s.LineStep (s.setPort p r) := by
  refine ⟨⟨[], rfl⟩, rfl, rfl, rfl, rfl, rfl, fun q => ?_⟩
  rw [State.setPort_port, Four.get_set]
  split
  · next hq => rw [h, hq]
  · rfl

theorem State.lineStep_giveMark (m : Mark) : s.LineStep (s.giveMark m) :=
  ⟨⟨[m], rfl⟩, s.giveMark_clock m, s.giveMark_bus m, s.giveMark_chan m, s.giveMark_cap m, s.giveMark_pending m,
    fun p => by rw [State.giveMark_port]⟩

theorem State.lineStep_giveLineMark (kind : MarkKind) (n : LineNo) (d16 : Half) (d32 : Word) :
    s.LineStep (s.giveLineMark kind n d16 d32) := s.lineStep_giveMark _

theorem State.lineStep_giveVerdictMark (kind : MarkKind) (n : LineNo) (time : Word) (d16 : Half) (d32 : Word) :
    s.LineStep (s.giveVerdictMark kind n time d16 d32) := s.lineStep_giveMark _

theorem State.lineStep_takeEvent (e : Event) {effect : State → State} (h : ∀ u : State, u.LineStep (effect u)) :
    s.LineStep (s.takeEvent e effect) := by
  rcases s.takeEvent_cases e effect with ht | ht
  · rw [ht]; exact .refl s
  · rw [ht]; exact (s.lineStep_undue e).trans (h _)

end Updates

/-! ### The ring supply -/

section Ringing

variable (s : State) (p : LineNo)

theorem State.lineStep_startBurst : s.LineStep (s.startBurst p) := s.lineStep_setRing p _

theorem State.lineStep_passGrant (a : Bool) : s.LineStep (s.passGrant a) := by
  unfold State.passGrant
  split
  · exact s.lineStep_setGrant a none
  · exact .trans (.trans (.trans (s.lineStep_arb _) (State.lineStep_setGrant _ _ _)) (State.lineStep_startBurst _ _))
      (State.lineStep_undue _ _)

theorem State.lineStep_releaseGrant : s.LineStep (s.releaseGrant p) := by
  have hlow := s.lineStep_setRing p { s.ring.get p with level := false }
  unfold State.releaseGrant
  dsimp only
  split
  · exact hlow.trans (State.lineStep_passGrant _ true)
  · split
    · exact hlow.trans (State.lineStep_passGrant _ false)
    · exact hlow

theorem State.lineStep_askGrant : s.LineStep (s.askGrant p) := by
  unfold State.askGrant
  split
  · exact .trans (s.lineStep_setGrant true _) (State.lineStep_startBurst _ p)
  · split
    · exact .trans (s.lineStep_setGrant false _) (State.lineStep_startBurst _ p)
    · exact .trans (s.lineStep_setRing p _) (State.lineStep_arb _ _)

theorem State.lineStep_leaveSupply : s.LineStep (s.leaveSupply p) := by
  unfold State.leaveSupply
  split
  · exact s.lineStep_releaseGrant p
  · exact s.lineStep_arb _
  · exact .refl s

theorem State.lineStep_abortIdent (cause : Half) : s.LineStep (s.abortIdent p cause) := by
  unfold State.abortIdent
  dsimp only
  split
  · exact .trans (s.lineStep_setIdent p _) (State.lineStep_giveLineMark _ _ _ _ _)
  · exact .refl s

theorem State.lineStep_dropIdent : s.LineStep (s.dropIdent p) := by
  unfold State.dropIdent
  dsimp only
  split
  · exact s.lineStep_setIdent p _
  · exact .refl s

theorem State.lineStep_identStep : s.LineStep (s.identStep p) := by
  unfold State.identStep
  dsimp only
  split
  · split
    · exact .refl s
    · split
      · exact .trans (s.lineStep_setIdent p _) (State.lineStep_setRing _ p _)
      · exact s.lineStep_setIdent p _
  · split
    · exact .trans (.trans (s.lineStep_setIdent p _) (State.lineStep_setRing _ p _)) (State.lineStep_giveLineMark _ _ _ _ _)
    · exact s.lineStep_setIdent p _
  · split
    · exact s.lineStep_setIdent p _
    · exact s.lineStep_setIdent p _
  · exact .refl s

theorem State.lineStep_endRing : s.LineStep (s.endRing p) :=
  .trans (s.lineStep_setRing p _) (State.lineStep_setIdent _ p _)

theorem State.lineStep_ringTrip : s.LineStep (s.ringTrip p) := by
  refine .trans (.trans (.trans (s.lineStep_leaveSupply p) (State.lineStep_abortIdent _ p 0)) (State.lineStep_endRing _ p)) ?_
  exact .trans (State.lineStep_setPort _ p _ (by rfl)) (State.lineStep_giveLineMark _ _ _ _ _)

theorem State.lineStep_completeRing : s.LineStep (s.completeRing p) :=
  .trans (.trans (s.lineStep_endRing p) (State.lineStep_setPort _ p _ (by rfl))) (State.lineStep_giveLineMark _ _ _ _ _)

theorem State.lineStep_stopRing : s.LineStep (s.stopRing p) :=
  .trans (.trans (.trans (s.lineStep_leaveSupply p) (State.lineStep_abortIdent _ p 1)) (State.lineStep_endRing _ p))
    (State.lineStep_setPort _ p _ (by rfl))

theorem State.lineStep_advanceRing : s.LineStep (s.advanceRing p) := by
  unfold State.advanceRing
  dsimp only
  split
  · exact .refl s
  · split
    · exact s.lineStep_completeRing p
    · split
      · exact .trans (s.lineStep_setRing p _) (State.lineStep_askGrant _ p)
      · exact s.lineStep_setRing p _

theorem State.lineStep_beginIdentHold : s.LineStep (s.beginIdentHold p) :=
  .trans (s.lineStep_setRing p _) (State.lineStep_setIdent _ p _)

theorem State.lineStep_endBurst : s.LineStep (s.endBurst p) := by
  refine .trans (s.lineStep_releaseGrant p) ?_
  unfold State.endBurst
  dsimp only
  split
  · exact State.lineStep_beginIdentHold _ p
  · exact State.lineStep_advanceRing _ p

theorem State.lineStep_countRest : s.LineStep (s.countRest p) := by
  have hcount := s.lineStep_setRing p ((s.ring.get p).withCount ((s.ring.get p).segment - 1))
  unfold State.countRest
  dsimp only
  split
  · exact hcount.trans (State.lineStep_advanceRing _ p)
  · exact hcount

theorem State.lineStep_ringTick : s.LineStep (s.ringTick p) := by
  unfold State.ringTick
  dsimp only
  split
  · split
    · exact .trans (s.lineStep_setRing p _) (State.lineStep_endBurst _ p)
    · exact s.lineStep_setRing p _
  · exact .trans (s.lineStep_identStep p) (State.lineStep_countRest _ p)
  · exact .trans (s.lineStep_identStep p) (State.lineStep_countRest _ p)
  · exact .refl s
  · exact .refl s

theorem State.lineStep_ringScan (trip : Bool) : s.LineStep (s.ringScan p trip) := by
  unfold State.ringScan
  dsimp only
  split
  · split
    · exact s.lineStep_setRing p _
    · split
      · exact s.lineStep_ringTrip p
      · exact s.lineStep_setRing p _
  · exact .refl s
  · split
    · exact s.lineStep_ringTrip p
    · exact .refl s

theorem State.lineStep_startRing (run : CadenceRun) (freq : Nat) (body : List Byte) : s.LineStep (s.startRing p run freq body) := by
  have hbefore := (s.lineStep_setPort p { s.port.get p with state := .ringing, breakCount := none, gapCount := none, pulses := 0 }
    rfl).trans (State.lineStep_setRing _ p { s.ring.get p with run := some run, freq := freq, trip := 0, bursts := 0 })
  unfold State.startRing
  dsimp only
  split
  · exact .trans (.trans (.trans hbefore (State.lineStep_setIdent _ p _)) (State.lineStep_undue _ _)) (State.lineStep_askGrant _ p)
  · exact .trans (.trans (.trans hbefore (State.lineStep_setIdent _ p _)) (State.lineStep_undue _ _)) (State.lineStep_setRing _ p _)

theorem State.lineStep_driveEvent : s.LineStep (s.driveEvent p) := by
  unfold State.driveEvent
  split
  · exact s.lineStep_setRing p _
  · exact .refl s

theorem State.lineStep_passFree : s.LineStep s.passFree := by
  unfold State.passFree
  split
  · exact .refl s
  · split
    · exact s.lineStep_passGrant true
    · split
      · exact s.lineStep_passGrant false
      · exact .refl s

end Ringing

/-! ### Tones and verdicts -/

section Tones

variable (s : State) (p : LineNo)

theorem State.lineStep_endTone : s.LineStep (s.endTone p) := s.lineStep_setTone p _

theorem State.lineStep_startTone (index cadence : Nat) (r : ToneRecord) (run : CadenceRun) :
    s.LineStep (s.startTone p index cadence r run) :=
  .trans (s.lineStep_setTone p _) (State.lineStep_undue _ _)

theorem State.lineStep_toneTick : s.LineStep (s.toneTick p) := by
  unfold State.toneTick
  dsimp only
  split
  · exact .refl s
  · split
    · exact s.lineStep_setTone p _
    · split
      · exact s.lineStep_setTone p _
      · exact .trans (s.lineStep_endTone p) (State.lineStep_giveLineMark _ _ _ _ _)

theorem State.lineStep_digitOffStep (time : Word) : s.LineStep (s.digitOffStep p time) := by
  unfold State.digitOffStep
  dsimp only
  split
  · exact .refl s
  · split
    · exact .trans (s.lineStep_setVerdict p _) (State.lineStep_giveVerdictMark _ _ _ _ _ _)
    · exact .refl s

theorem State.lineStep_digitOnStep (time : Word) : s.LineStep (s.digitOnStep p time) := by
  unfold State.digitOnStep
  dsimp only
  split
  · split
    · exact .trans (s.lineStep_setVerdict p _) (State.lineStep_giveVerdictMark _ _ _ _ _ _)
    · exact .refl s
  · exact .refl s

theorem State.lineStep_debounce (time : Word) (fv : FrameVerdict) : s.LineStep (s.debounce p time fv) :=
  .trans (.trans (s.lineStep_setVerdict p _) (State.lineStep_digitOffStep _ p time)) (State.lineStep_digitOnStep _ p time)

theorem State.lineStep_updateRun (k : RunKind) (time : Word) (fv : FrameVerdict) : s.LineStep (s.updateRun p k time fv) := by
  unfold State.updateRun
  dsimp only
  split
  · split
    · exact .trans (s.lineStep_setVerdict p _) (State.lineStep_giveVerdictMark _ _ _ _ _ _)
    · exact s.lineStep_setVerdict p _
  · exact s.lineStep_setVerdict p _

theorem State.lineStep_lineVerdictStep : s.LineStep (s.lineVerdictStep p) := by
  unfold State.lineVerdictStep
  split
  · exact .trans (.trans (s.lineStep_debounce p _ _) (State.lineStep_updateRun _ p _ _ _)) (State.lineStep_updateRun _ p _ _ _)
  · exact s.lineStep_setVerdict p _

theorem State.lineStep_farFrameStep (f : FarFrame) : s.LineStep (s.farFrameStep p f) :=
  .trans (.trans (.trans (s.lineStep_setVerdict p _) (State.lineStep_updateRun _ p _ _ _)) (State.lineStep_updateRun _ p _ _ _))
    (State.lineStep_setVerdict _ p _)

theorem State.lineStep_farFrameEvent : s.LineStep (s.farFrameEvent p) := by
  unfold State.farFrameEvent
  dsimp only
  split
  · split
    · exact .refl s
    · exact .trans (s.lineStep_setVerdict p _) (State.lineStep_farFrameStep _ p _)
  · exact .refl s

end Tones

/-! ### Ports -/

section Ports

variable (s : State) (p : LineNo)

/-- Whatever the filter does, it does to the filtered level and the differing count alone. -/
theorem Port.filterHook_eq (r : Port) (raw : Bool) :
    r.filterHook raw = { r with filtered := (r.filterHook raw).filtered, differing := (r.filterHook raw).differing } := by
  unfold Port.filterHook
  split
  · rfl
  · split <;> rfl

@[simp] theorem Port.filterHook_lineFrame (r : Port) (raw : Bool) : (r.filterHook raw).lineFrame = r.lineFrame := by
  rw [Port.filterHook_eq]

theorem State.lineStep_seize : s.LineStep (s.seize p) :=
  .trans (s.lineStep_setPort p _ (by rfl)) (State.lineStep_giveLineMark _ _ _ _ _)

theorem State.lineStep_reportDigit : s.LineStep (s.reportDigit p) := by
  have hport := s.lineStep_setPort p { s.port.get p with pulses := 0, gapCount := none } rfl
  unfold State.reportDigit
  dsimp only
  split
  · exact hport
  · split
    · exact hport.trans (State.lineStep_giveLineMark _ _ _ _ _)
    · split
      · exact hport.trans (State.lineStep_giveLineMark _ _ _ _ _)
      · exact hport.trans (State.lineStep_giveLineMark _ _ _ _ _)

theorem State.lineStep_startBreak : s.LineStep (s.startBreak p) :=
  .trans (s.lineStep_setPort p _ (by rfl)) (State.lineStep_undue _ _)

theorem State.lineStep_makeBreak (b : Nat) : s.LineStep (s.makeBreak p b) := by
  unfold State.makeBreak
  dsimp only
  split
  · split
    · exact .trans (s.lineStep_setPort p _ (by rfl)) (State.lineStep_undue _ _)
    · exact s.lineStep_setPort p _ (by rfl)
  · split
    · exact .trans (s.lineStep_setPort p _ (by rfl)) (State.lineStep_undue _ _)
    · exact .trans (.trans (s.lineStep_setPort p _ (by rfl)) (State.lineStep_reportDigit _ p)) (State.lineStep_giveLineMark _ _ _ _ _)

theorem State.lineStep_offhookScan (was : Bool) : s.LineStep (s.offhookScan p was) := by
  unfold State.offhookScan
  dsimp only
  split
  · exact s.lineStep_startBreak p
  · split
    · split
      · exact s.lineStep_makeBreak p _
      · exact .refl s
    · exact .refl s

theorem State.lineStep_scanStep (hook trip : Bool) : s.LineStep (s.scanStep p hook trip) := by
  have hfilter := s.lineStep_setPort p ((s.port.get p).filterHook hook) (Port.filterHook_lineFrame _ _)
  unfold State.scanStep
  dsimp only
  split
  · exact .refl s
  · split
    · exact .trans hfilter (State.lineStep_seize _ p)
    · exact hfilter
  · exact .trans hfilter (State.lineStep_ringScan _ p trip)
  · exact .trans hfilter (State.lineStep_offhookScan _ p _)

theorem State.lineStep_clearLine : s.LineStep (s.clearLine p) :=
  .trans (.trans (s.lineStep_setPort p _ (by rfl)) (State.lineStep_endTone _ p)) (State.lineStep_giveLineMark _ _ _ _ _)

theorem State.lineStep_expireBreak : s.LineStep (s.expireBreak p) := by
  unfold State.expireBreak
  dsimp only
  split
  · exact .refl s
  · split
    · exact s.lineStep_clearLine p
    · exact s.lineStep_setPort p _ (by rfl)

theorem State.lineStep_expireGap : s.LineStep (s.expireGap p) := by
  unfold State.expireGap
  dsimp only
  split
  · exact .refl s
  · split
    · exact s.lineStep_reportDigit p
    · exact s.lineStep_setPort p _ (by rfl)

theorem State.lineStep_timerStep : s.LineStep (s.timerStep p) :=
  .trans (s.lineStep_expireBreak p) (State.lineStep_expireGap _ p)

theorem State.lineStep_tickStep : s.LineStep (s.tickStep p) := by
  unfold State.tickStep
  split
  · exact s.lineStep_ringTick p
  · exact s.lineStep_toneTick p

theorem State.lineStep_orderPortDown : s.LineStep (s.orderPortDown p).1 := by
  unfold State.orderPortDown
  dsimp only
  split
  · exact .trans (.trans (.trans (s.lineStep_leaveSupply p) (State.lineStep_dropIdent _ p)) (State.lineStep_endRing _ p))
      (State.lineStep_setPort _ p _ (by rfl))
  · exact .trans (s.lineStep_endTone p) (State.lineStep_setPort _ p _ (by rfl))
  · exact State.lineStep_setPort _ p _ (by rfl)

end Ports

/-! ### The events of the line side -/

/-- The events that are line-side steps: all but a channel's frame boundary and capture event, a trigger taken and the mark writer's
boundary. -/
def lineSide : PartEvent → Bool
  | .frameBoundary _ => false
  | .captureEvent _ => false
  | .toneTrigger _ _ => false
  | .markWriter => false
  | _ => true

theorem State.lineStep_partEvent (s : State) (e : PartEvent) (h : lineSide e = true) : s.LineStep (s.partEvent e) := by
  cases e with
  | frameBoundary ch => cases h
  | farFrame p => exact s.lineStep_farFrameEvent p
  | captureEvent ch => cases h
  | lineVerdict p => exact s.lineStep_takeEvent _ fun u => u.lineStep_lineVerdictStep p
  | toneTrigger ch cause => cases h
  | lineScan p hook trip => exact s.lineStep_takeEvent _ fun u => u.lineStep_scanStep p hook trip
  | portTimer p => exact s.lineStep_takeEvent _ fun u => u.lineStep_timerStep p
  | cadenceTick p => exact s.lineStep_takeEvent _ fun u => u.lineStep_tickStep p
  | ringDrive p => exact s.lineStep_driveEvent p
  | markWriter => cases h

/-- The orders that are line-side steps are those of ports, rings and tones; each other order is one of the channel's or the reserve. -/
inductive State.ChannelRun (s : State) (count : Nat) (n : CellNo) : State → Prop
  | channelOpen (ch : LineNo) (raw : OpenParams) (h : (s.chan.get ch).state = .closed) :
      State.ChannelRun s count n (s.openChannel ch raw.inRange)
  | channelClose (ch : LineNo) (h : (s.chan.get ch).state ≠ .closed) : State.ChannelRun s count n (s.closeChannel ch)
  | enterSteady (ch : LineNo) (explicit : Option Nat) (h : (s.chan.get ch).state ≠ .closed) (hm : (s.chan.get ch).mode = .speech) :
      State.ChannelRun s count n (s.enterSteady ch explicit causeOrder).1
  | reapplySteady (ch : LineNo) (explicit : Option Nat) (h : (s.chan.get ch).state ≠ .closed)
      (hm : (s.chan.get ch).mode = .steady) : State.ChannelRun s count n (s.reapplySteady ch explicit).1
  | returnToSpeech (ch : LineNo) (h : (s.chan.get ch).state ≠ .closed) (hm : (s.chan.get ch).mode = .steady) :
      State.ChannelRun s count n (s.returnToSpeech ch)
  | snapshot (ch : LineNo) (off : Nat) (clear : Bool) (hlow : 32 + 16 * count ≤ off) (hhigh : off + 64 ≤ 512) :
      State.ChannelRun s count n (if clear then (s.putCell n off (s.chan.get ch).snapshot).setChan ch (s.chan.get ch).clearCounters
        else s.putCell n off (s.chan.get ch).snapshot)
  | reserve (v : Nat) : State.ChannelRun s count n { s with ex := { s.ex with reserve := min v 4 } }

theorem State.OrderRun.lineStep_or_channelRun {s t : State} {n : CellNo} {count : Nat} (h : s.OrderRun n count t) :
    s.LineStep t ∨ s.ChannelRun count n t := by
  cases h with
  | refused => exact .inl (.refl s)
  | portUp p h => exact .inl (s.lineStep_setPort p _ (by rfl))
  | portDown p => exact .inl (s.lineStep_orderPortDown p)
  | polarity p v => exact .inl (s.lineStep_setPort p _ (by rfl))
  | timing p f t => exact .inl (s.lineStep_setPort p _ (by rfl))
  | ring p run freq body h => exact .inl (s.lineStep_startRing p run freq body)
  | ringStop p h => exact .inl (s.lineStep_stopRing p)
  | tone p index cadence r run h => exact .inl (s.lineStep_startTone p index cadence r run)
  | toneStop p => exact .inl (s.lineStep_endTone p)
  | channelOpen ch raw h => exact .inr (.channelOpen ch raw h)
  | channelClose ch h => exact .inr (.channelClose ch h)
  | enterSteady ch explicit h hm => exact .inr (.enterSteady ch explicit h hm)
  | reapplySteady ch explicit h hm => exact .inr (.reapplySteady ch explicit h hm)
  | returnToSpeech ch h hm => exact .inr (.returnToSpeech ch h hm)
  | snapshot ch off clear hlow hhigh => exact .inr (.snapshot ch off clear hlow hhigh)
  | reserve v => exact .inr (.reserve v)

end Sys2Proof.Machine

/-! ## The proof of O55: the part writes memory byte by byte, at stamps and inside the cell area alone (R1) -/

namespace Sys2Proof.Machine

/-- The clock and the grid alone, the line frames, the far runs' beginning and the due events move as a sample period begins. -/
theorem State.advanceClock_fields (s : State) : s.advanceClock.mem = s.mem ∧ s.advanceClock.ex = s.ex ∧
    s.advanceClock.marks = s.marks ∧ s.advanceClock.chan = s.chan ∧ s.advanceClock.cap = s.cap := by
  unfold State.advanceClock
  dsimp only
  split <;> split <;> exact ⟨rfl, rfl, rfl, rfl, rfl⟩

/-- What every change of the part to memory, the exchange unit and the mark writer keeps, and what depends on nothing else. -/
structure KeptByPart (P : State → Prop) : Prop where
  frame : ∀ s t : State, t.mem = s.mem → t.ex = s.ex → t.marks = s.marks → s.Aside t → P s → P t
  putCell : ∀ (s : State) (n : CellNo) (off : Nat) (bs : List Byte), P s → P (s.putCell n off bs)
  stamp : ∀ (s : State) (n : CellNo), P s → P (s.putByte n.val stampKept)
  handOver : ∀ (s : State) (n : CellNo) (b : Byte), isPosting b = false → P s → P (s.handOver n b)
  setKept : ∀ (s : State) (n : CellNo) (k : Kept), P s → P (s.setKept n k)
  posts : ∀ (s : State) (v : BitVec 8), P s → P (s.setTally .posts v)
  claim : ∀ (s : State) (n : CellNo) (rest : List CellNo), s.ex.spare = n :: rest → P s → P { s with ex := { s.ex with spare := rest } }
  join : ∀ (s : State) (n : CellNo), s.ex.spare.length < 32 → P s → P { s with ex := { s.ex with spare := s.ex.spare ++ [n] } }
  reserve : ∀ (s : State) (v : Nat), P s → P { s with ex := { s.ex with reserve := min v 4 } }
  giveMark : ∀ (s : State) (m : Mark), P s → P (s.giveMark m)
  markBoundary : ∀ s : State, P s → P s.markBoundary

section Part

variable {P : State → Prop} {s : State}

theorem KeptByPart.refuseCell (hP : KeptByPart P) (n : CellNo) (b : Byte) (h : P s) : P (s.refuseCell n b) :=
  hP.handOver _ n _ rfl (hP.putCell s n 16 [b] h)

theorem KeptByPart.lineStep (hP : KeptByPart P) {t : State} (h : s.LineStep t) (hs : P s) : P t :=
  h.keeps hP.giveMark (fun u v _ _ hbus hpending hv => hP.frame v (u.graft v) rfl rfl rfl (.of_clock rfl hbus hpending) hv) hs

theorem KeptByPart.setChan (hP : KeptByPart P) (ch : LineNo) (c : Channel) (h : P s) : P (s.setChan ch c) := hP.frame s _ rfl rfl rfl (.of_clock rfl rfl rfl) h

theorem KeptByPart.setCap (hP : KeptByPart P) (ch : LineNo) (c : Capture) (h : P s) : P (s.setCap ch c) := hP.frame s _ rfl rfl rfl (.of_clock rfl rfl rfl) h

/-! ### References and frame boundaries -/

theorem KeptByPart.dropRef (hP : KeptByPart P) (n : CellNo) (h : P s) : P (s.dropRef n) := by
  unfold State.dropRef
  split
  · split
    · exact hP.handOver s n _ rfl h
    · exact hP.setKept s n _ h
  · exact h

theorem KeptByPart.dropRefs (hP : KeptByPart P) (es : List Entry) : ∀ s : State, P s → P (s.dropRefs es) := by
  unfold State.dropRefs
  induction es with
  | nil => exact fun s h => h
  | cons e es ih => exact fun s h => ih _ (hP.dropRef e.cell h)

theorem KeptByPart.handFrames (hP : KeptByPart P) (ch : LineNo) (out : Frame) (far : Option Frame) (h : P s) :
    P (s.handFrames ch out far) := hP.frame s _ (by simp) (by simp) (by simp) (.of_clock (by simp) (by simp) (by simp)) h

theorem KeptByPart.trimStep (hP : KeptByPart P) (ch : LineNo) (h : P s) : P (s.trimStep ch) := by
  unfold State.trimStep
  dsimp only
  split
  · exact hP.setChan ch _ h
  · exact hP.dropRef _ (hP.setChan ch _ h)

theorem KeptByPart.ordinaryBoundary (hP : KeptByPart P) (ch : LineNo) (h : P s) : P (s.ordinaryBoundary ch) := by
  unfold State.ordinaryBoundary
  dsimp only
  split
  · exact hP.handFrames ch _ _ (hP.dropRef _ (hP.setChan ch _ h))
  · split
    · exact hP.handFrames ch _ _ (hP.setChan ch _ h)
    · exact hP.handFrames ch _ _ (hP.setChan ch _ h)

theorem KeptByPart.playBoundary (hP : KeptByPart P) (ch : LineNo) (h : P s) : P (s.playBoundary ch) := by
  unfold State.playBoundary
  dsimp only
  split
  · exact h
  · exact hP.handFrames ch _ _ h
  · split
    · exact hP.handFrames ch _ _ (hP.setChan ch _ h)
    · split
      · exact hP.ordinaryBoundary ch (hP.trimStep ch h)
      · exact hP.ordinaryBoundary ch h

/-! ### Modes and triggers -/

theorem KeptByPart.enterSteady (hP : KeptByPart P) (ch : LineNo) (explicit : Option Nat) (cause : Half)
    (h : P s) : P (s.enterSteady ch explicit cause).1 := hP.giveMark _ _ (hP.setChan ch _ h)

theorem KeptByPart.reapplySteady (hP : KeptByPart P) (ch : LineNo) (explicit : Option Nat) (h : P s) :
    P (s.reapplySteady ch explicit).1 := by
  unfold State.reapplySteady
  dsimp only
  split
  · exact hP.setChan ch _ h
  · split
    · exact h
    · exact h

theorem KeptByPart.triggerEvent (hP : KeptByPart P) (ch : LineNo) (cause : TriggerCause) (h : P s) :
    P (s.triggerEvent ch cause) := by
  unfold State.triggerEvent State.takeTrigger
  dsimp only
  split
  · have hspent : ∀ v, P (s.setVerdict ch v) := fun _ => hP.frame s _ rfl rfl rfl (.of_clock rfl rfl rfl) h
    split
    · exact hP.enterSteady ch none _ (hspent _)
    · exact hspent _
  · exact h

/-! ### Capture -/

/-- A frame coded at its place of the running period, if there is a cell (R89). -/
def State.codeFrame (s : State) (ch : LineNo) (f : Frame) : State :=
  match (s.cap.get ch).assembly with
  | some n => s.putBlock n (s.chan.get ch).params.coding (s.cap.get ch).frames f
  | none => s

theorem State.joinPeriod_eq (s : State) (ch : LineNo) (f : Frame) :
    s.joinPeriod ch f =
      if (s.chan.get ch).params.packing ≤ (s.cap.get ch).frames + 1 then
        ((s.codeFrame ch f).setCap ch { s.cap.get ch with frames := (s.cap.get ch).frames + 1 }).endPeriod ch
      else (s.codeFrame ch f).setCap ch { s.cap.get ch with frames := (s.cap.get ch).frames + 1 } := by
  cases h : (s.cap.get ch).assembly <;> simp only [State.joinPeriod, State.codeFrame, h]

/-- The parcel of a period handed over, if the period holds a cell (R90). -/
def State.sendHeld (s : State) (ch : LineNo) : State :=
  match (s.cap.get ch).assembly with
  | some n => s.sendParcel ch n
  | none => s

theorem State.endPeriod_eq (s : State) (ch : LineNo) :
    s.endPeriod ch = (s.sendHeld ch).setCap ch { (s.sendHeld ch).cap.get ch with
      state := stateAfterPeriod ((s.sendHeld ch).cap.get ch).periodMode ((s.sendHeld ch).cap.get ch).inactive
        ((s.sendHeld ch).chan.get ch).params.hangover } := by
  cases h : (s.cap.get ch).assembly <;> simp only [State.endPeriod, State.sendHeld, h]

theorem KeptByPart.putRedundant (hP : KeptByPart P) (n : CellNo) (coding : Coding) (packing : Nat) (fs : List Frame) :
    ∀ (s : State) (k : Nat), P s → P (s.putRedundant n coding packing k fs) := by
  induction fs with
  | nil => exact fun s k h => h
  | cons f fs ih => exact fun s k h => ih _ _ (hP.putCell s n _ _ h)

theorem KeptByPart.starvePeriod (hP : KeptByPart P) (ch : LineNo) (h : P s) : P (s.starvePeriod ch) := by
  unfold State.starvePeriod
  dsimp only
  split
  · exact hP.setChan ch _ (hP.setCap ch _ h)
  · exact hP.giveMark _ _ (hP.setChan ch _ (hP.setCap ch _ h))

theorem KeptByPart.startPeriod (hP : KeptByPart P) (ch : LineNo) (mode : Mode) (h : P s) : P (s.startPeriod ch mode) := by
  unfold State.startPeriod
  dsimp only
  split
  · exact hP.starvePeriod ch (hP.setCap ch _ h)
  · next n u hu =>
    obtain ⟨rest, hs, -, rfl⟩ := State.claim_eq _ _ _ _ _ hu
    exact hP.putRedundant _ _ _ _ _ _ (hP.setCap ch _ (hP.setKept _ n _ (hP.claim _ n rest hs (hP.setCap ch _ h))))

theorem KeptByPart.sendParcel (hP : KeptByPart P) (ch : LineNo) (n : CellNo) (h : P s) : P (s.sendParcel ch n) :=
  hP.setChan ch _ (hP.handOver _ n _ rfl (hP.setCap ch _ (hP.putCell s n 0 _ h)))

theorem KeptByPart.endPeriod (hP : KeptByPart P) (ch : LineNo) (h : P s) : P (s.endPeriod ch) := by
  have hheld : P (s.sendHeld ch) := by
    unfold State.sendHeld
    split
    · exact hP.sendParcel ch _ h
    · exact h
  rw [State.endPeriod_eq]
  exact hP.setCap ch _ hheld

theorem KeptByPart.joinPeriod (hP : KeptByPart P) (ch : LineNo) (f : Frame) (h : P s) : P (s.joinPeriod ch f) := by
  have hcoded : P (s.codeFrame ch f) := by
    unfold State.codeFrame
    split
    · exact hP.putCell s _ _ _ h
    · exact h
  rw [State.joinPeriod_eq]
  split
  · exact hP.endPeriod ch (hP.setCap ch _ hcoded)
  · exact hP.setCap ch _ hcoded

theorem KeptByPart.captureStep (hP : KeptByPart P) (ch : LineNo) (h : P s) : P (s.captureStep ch) := by
  have hperiod : ∀ (u : State) (mode : Mode) (active : Bool) (f : Frame), P u → P (u.periodStep ch mode active f) := by
    intro u mode active f hu
    unfold State.periodStep
    split
    · exact hu
    · exact hP.joinPeriod ch f hu
    · exact hP.joinPeriod ch f (hP.startPeriod ch mode hu)
    · split
      · exact hu
      · exact hP.joinPeriod ch f (hP.startPeriod ch mode hu)
  exact hP.setCap ch _ (hperiod _ _ _ _ (hP.setCap ch _ h))

/-! ### The part's events, and a sweep -/

theorem KeptByPart.undue (hP : KeptByPart P) (e : Event) (h : P s) : P (s.undue e) := hP.frame s _ rfl rfl rfl (.of_clock rfl rfl rfl) h

theorem KeptByPart.partEvent (hP : KeptByPart P) (s : State) (e : PartEvent) (h : P s) : P (s.partEvent e) := by
  cases hl : lineSide e with
  | true => exact hP.lineStep (s.lineStep_partEvent e hl) h
  | false =>
    cases e with
    | frameBoundary ch =>
      show P (s.takeEvent (.frame ch) fun u => u.playBoundary ch)
      exact State.takeEvent_keeps h (hP.playBoundary ch (hP.undue _ h))
    | captureEvent ch =>
      show P (s.takeEvent (.capture ch) fun u => if (u.chan.get ch).state = .closed then u else u.captureStep ch)
      refine State.takeEvent_keeps h ?_
      split
      · exact hP.undue _ h
      · exact hP.captureStep ch (hP.undue _ h)
    | toneTrigger ch cause => exact hP.triggerEvent ch cause h
    | markWriter =>
      show P (s.takeEvent .markWriter fun u => u.markBoundary)
      exact State.takeEvent_keeps h (hP.markBoundary _ (hP.undue _ h))
    | farFrame p => cases hl
    | lineVerdict p => cases hl
    | lineScan p hook trip => cases hl
    | portTimer p => cases hl
    | cadenceTick p => cases hl
    | ringDrive p => cases hl

theorem KeptByPart.closeChannel (hP : KeptByPart P) (ch : LineNo) (h : P s) : P (s.closeChannel ch) := by
  have hflushed := hP.dropRefs (s.chan.get ch).list _ (hP.setChan ch { s.chan.get ch with list := [] } h)
  have hcapture : ∀ u : State, P u → P (u.closeCapture ch) := by
    intro u hu
    unfold State.closeCapture
    dsimp only
    split
    · exact hP.setCap ch _ (hP.handOver _ _ _ rfl hu)
    · exact hP.setCap ch _ hu
  exact hP.setChan ch _ (hcapture _ hflushed)

theorem KeptByPart.orderRun (hP : KeptByPart P) {s t : State} {n : CellNo} {count : Nat} (h : s.OrderRun n count t)
    (hs : P s) : P t := by
  rcases h.lineStep_or_channelRun with h | h
  · exact hP.lineStep h hs
  · cases h with
    | channelOpen ch raw h => exact hP.frame s _ rfl rfl rfl (.of_clock rfl rfl rfl) hs
    | channelClose ch h => exact hP.closeChannel ch hs
    | enterSteady ch explicit h hm => exact hP.enterSteady ch explicit _ hs
    | reapplySteady ch explicit h hm => exact hP.reapplySteady ch explicit hs
    | returnToSpeech ch h hm => exact hP.setChan ch _ (hP.giveMark _ _ hs)
    | snapshot ch off clear hlow hhigh =>
      have hput := hP.putCell s n off (s.chan.get ch).snapshot hs
      cases clear with
      | true => exact hP.setChan ch _ hput
      | false => exact hput
    | reserve v => exact hP.reserve s v hs

/-- The sample periods that pass inside a sweep reach no scan instant (R46). -/
theorem State.aside_sweepWork (s : State) : s.Aside s.sweepWork := by
  refine ⟨s.sweepWork_bus, s.sweepWork_pending, s.sweepWork_running,
    s.sweepWork_keeps (fun t => t.clock.sc.toNat / 8 = s.clock.sc.toNat / 8) (fun _ _ h => h) (fun t line h => ?_) rfl⟩
  rcases t.passSample_sc line with he | ⟨hsc, -, hscan, -⟩
  · rwa [he]
  · rw [hsc, ← h]
    rw [BitVec.toNat_add] at hscan ⊢
    have := t.clock.sc.isLt
    simp at hscan ⊢
    omega

theorem KeptByPart.sweepWork (hP : KeptByPart P) (h : P s) : P s.sweepWork :=
  hP.frame s _ s.sweepWork_mem s.sweepWork_ex s.sweepWork_marks s.aside_sweepWork h

theorem KeptByPart.runSheet (hP : KeptByPart P) (n : CellNo) (h : P s) : P (s.runSheet n) := by
  unfold State.runSheet
  dsimp only
  split
  · exact hP.refuseCell n _ h
  · exact hP.handOver _ n _ rfl (State.runEntries_keeps (fun u hu => hP.sweepWork hu)
      (fun u t hr hu => hP.orderRun hr hu) (fun u k b _ hu => hP.putCell u n _ _ hu) _ 0 s (by omega) h)

theorem KeptByPart.arrive (hP : KeptByPart P) (ch : LineNo) (n : CellNo) (coding : Coding)
    (hd : ParcelHeader) (h : P s) : P (s.arrive ch n coding hd) := by
  have hmove : ∀ (u : State) (kind : ParcelKind), P u → P (u.moveCursor ch kind hd.ts) := by
    intro u kind hu
    cases kind with
    | anchoring => exact hP.setChan ch _ hu
    | reanchoring => exact hP.setChan ch _ hu
    | ordinary => exact hu
    | resync early => exact hP.giveMark _ _ (hP.setChan ch _ (hP.dropRefs _ _ (hP.setChan ch _ hu)))
  have hplace : ∀ u : State, P u → P (u.placeParcel ch n coding hd.blocks) := by
    intro u hu
    have hput : P ((u.setChan ch ((u.chan.get ch).placeBlocks n coding hd.blocks).1).setRole n
        (.parcel ch ((u.chan.get ch).placeBlocks n coding hd.blocks).2)) := hP.setKept _ n _ (hP.setChan ch _ hu)
    unfold State.placeParcel
    dsimp only
    split
    · exact hP.handOver _ n _ rfl hput
    · exact hput
  exact hplace _ (hmove _ _ (hP.setChan ch _ h))

theorem KeptByPart.dispatch (hP : KeptByPart P) (n : CellNo) (posted : Byte) (h : P s) : P (s.dispatch n posted) := by
  unfold State.dispatch
  split
  · unfold State.dispatchParcel
    dsimp only
    split
    · exact hP.refuseCell n _ h
    · exact hP.arrive _ n _ _ h
  · split
    · exact hP.runSheet n h
    · unfold State.joinSpare
      split
      · next hroom => exact hP.setKept _ n _ (hP.join _ n hroom h)
      · exact hP.handOver _ n _ rfl h

theorem KeptByPart.takeCell (hP : KeptByPart P) (n : CellNo) (posted : Byte) (h : P s) : P (s.takeCell n posted) :=
  hP.dispatch n posted (hP.posts _ _ (hP.setKept _ n _ (hP.stamp _ n (hP.sweepWork h))))

theorem KeptByPart.clash (hP : KeptByPart P) (n : CellNo) (k : Kept) (posted : Byte) (h : P s) : P (s.clash n k posted) := by
  unfold State.clash
  split
  · exact h
  · exact hP.giveMark _ _ (hP.setKept _ n _ (hP.sweepWork h))

theorem KeptByPart.sweepStep (hP : KeptByPart P) (work : List (List (Four Sample)))
    (between : List (CellNo × PartEvent)) (h : P s) : P (s.sweepStep work between) :=
  State.sweepStep_keeps work between (fun u _ hu => hP.frame u _ rfl rfl rfl ⟨rfl, rfl, rfl, rfl⟩ hu) (fun u hu => hP.posts u 0 hu) hP.partEvent
    (fun _ n k _ hu => hP.clash n k _ hu) (fun _ n _ _ hu => hP.takeCell n _ hu) s h

theorem KeptByPart.effect (hP : KeptByPart P) {t : State} {c : Instr} (he : s.Effect c t) (hs : P s)
    (hpowerOn : ∀ ram, c = .powerOnReset ram → P (s.afterPowerOn ram))
    (hrunctl : ∀ lanes data, P (s.writeRunctl lanes data)) (hattnctl : ∀ lanes data, P (s.writeAttnctl lanes data))
    (htally : ∀ t after, P (s.operateTally t after))
    (hwrite : ∀ half lanes data, c = .hostMemoryWrite half lanes data → P (s.hostWrite (2 * half.toNat) lanes data))
    (hperiod : ∀ line, c = .samplePeriod line → s.clock.running = true → P (s.lineSamples line).advanceClock) : P t := by
  cases he with
  | nothing => exact hs
  | event c e => exact hP.partEvent s e hs
  | passFree p hr => exact hP.lineStep s.lineStep_passFree hs
  | powerOn ram => exact hpowerOn ram rfl
  | runctl c lanes data hc => exact hrunctl lanes data
  | attnctl c lanes data => exact hattnctl lanes data
  | tally c t after => exact htally t after
  | hostWrite half lanes data => exact hwrite half lanes data rfl
  | samplePeriod line hr => exact hperiod line rfl hr
  | sweep work between ht => exact hP.sweepStep work between (hP.undue _ hs)

end Part

/-! ### What every byte written keeps -/

section Writes

variable {P : Memory → Prop} (hP : ∀ (m : Memory) (a : Nat) (b : Byte), a < 0x7E ∨ 0x400 ≤ a → P m → P (m.write a b))

include hP in
theorem writeList_keeps (n : CellNo) (bs : List Byte) : ∀ (m : Memory) (off : Nat), P m → P (m.writeList (cellAddr n off) bs) := by
  induction bs with
  | nil => exact fun m off h => h
  | cons b bs ih =>
    intro m off h
    exact ih (m.write (cellAddr n off) b) (off + 1) (hP m _ b (.inr (by unfold cellAddr; omega)) h)

include hP in
/-- The part writes memory byte by byte, at stamps and inside the cell area alone (R1). -/
theorem keptByPart_of_writes : KeptByPart fun s => P s.mem := by
  have hstamp : ∀ (m : Memory) (n : CellNo) (b : Byte), P m → P (m.write n.val b) := fun m n b h => hP m n.val b (.inl (by omega)) h
  have hput : ∀ (s : State) (n : CellNo) (off : Nat) (bs : List Byte), P s.mem → P (s.putCell n off bs).mem :=
    fun s n off bs h => writeList_keeps hP n bs s.mem off h
  have hclose : ∀ s : State, P s.mem → P s.closeSheet.mem := by
    intro s h
    cases hc : s.marks.sheet with
    | none => rwa [State.closeSheet_none hc]
    | some c =>
      rw [State.closeSheet_some hc]
      exact hstamp _ c stampOutMarks (hput s c 0 _ h)
  have hmark : ∀ (s : State) (m : Mark), P s.mem → P (s.writeMark m).mem := by
    intro s m h
    cases hc : s.marks.sheet with
    | none => rwa [State.writeMark_none m hc]
    | some c =>
      have hrecord : P (s.recordMark c m).mem := hput s c _ _ h
      rw [State.writeMark_some m hc]
      split
      · exact hclose _ hrecord
      · exact hrecord
  have hopen : ∀ s u : State, s.marks.sheet = none → s.openSheet = some u → P s.mem → P u.mem := by
    intro s u _ hu h
    obtain ⟨c, rest, -, rfl⟩ := State.openSheet_eq hu
    exact h
  exact {
    frame := fun _ _ hm _ _ _ h => hm ▸ h
    putCell := hput
    stamp := fun s n h => hstamp s.mem n stampKept h
    handOver := fun s n b _ h => hstamp s.mem n b h
    setKept := fun _ _ _ h => h
    posts := fun _ _ h => h
    claim := fun _ _ _ _ h => h
    join := fun _ _ _ h => h
    reserve := fun _ _ h => h
    giveMark := State.giveMark_keeps (P := fun u => P u.mem) hmark hopen fun _ _ _ _ _ h => h
    markBoundary := State.markBoundary_keeps (P := fun u => P u.mem) hmark hopen (fun _ _ _ _ _ h => h) hclose }

end Writes

/-! ### Commands that do not write memory -/

section Registers

variable (s : State)

/-- A write of RUNCTL leaves memory as it stands. -/
theorem State.writeRunctl_mem (lanes : Lanes) (data : Half) : (s.writeRunctl lanes data).mem = s.mem := by
  unfold State.writeRunctl
  split
  · rfl
  · split
    · rfl
    · dsimp only
      split <;> split <;> rfl

theorem State.writeAttnctl_mem (lanes : Lanes) (data : Half) : (s.writeAttnctl lanes data).mem = s.mem := by
  unfold State.writeAttnctl
  split
  · rfl
  · split <;> rfl

theorem State.operateTally_mem (t : Tally) (after : BitVec 8) : (s.operateTally t after).mem = s.mem := by
  rw [State.operateTally_eq]

end Registers

/-! ### The canonical form -/

theorem keptByPart_wf : KeptByPart fun s => s.mem.wf = true := keptByPart_of_writes fun m a b _ h => m.wf_write a b h

theorem State.hostWrite_wf (s : State) (addr : Nat) (lanes : Lanes) (data : Half) (h : s.mem.wf = true) :
    (s.hostWrite addr lanes data).mem.wf = true := by
  have hlow : ∀ u : State, u.mem.wf = true → (if lanes.low then u.putByte addr (data.extractLsb' 0 8) else u).mem.wf = true := by
    intro u hu
    split
    · exact Memory.wf_write _ _ _ hu
    · exact hu
  unfold State.hostWrite
  split
  · exact h
  · split
    · unfold State.recordGuard
      split
      · exact h
      · exact h
    · unfold State.storeLanes
      dsimp only
      split
      · exact Memory.wf_write _ _ _ (hlow s h)
      · exact hlow s h

theorem State.Effect.keeps_memoryOk {s t : State} {c : Instr} (h : s.Effect c t) (hs : s.memoryOk) : t.memoryOk := by
  refine keptByPart_wf.effect h hs ?_ ?_ ?_ ?_ ?_ ?_
  · rintro (_ | cells) -
    · exact hs
    · exact Memory.wf_ofCells cells
  · intro lanes data
    rwa [State.writeRunctl_mem]
  · intro lanes data
    rwa [State.writeAttnctl_mem]
  · intro t after
    rwa [State.operateTally_mem]
  · exact fun half lanes data _ => State.hostWrite_wf s _ lanes data hs
  · intro line _ _
    rwa [(s.lineSamples line).advanceClock_fields.1]

/-- Settles O55: every byte the part, the host or a power-on reset stores is stored by a write that keeps the canonical form. -/
theorem stepKeepsMemoryCanonical : Obligations.StepKeepsMemoryCanonical :=
  fun _ _ hs h => step_keeps (P := State.memoryOk) (fun _ _ hu => hu) (fun _ _ _ he hu => he.keeps_memoryOk hu) hs h

end Sys2Proof.Machine

/-! ## What a capture event does, step by step (R81 to R91) -/

namespace Sys2Proof.Machine

/-! ### Lengths of frames and blocks (R103) -/

theorem Coding.block_fits (c : Coding) {block : Nat} (h : block < c.capacity) : blockOffset c block + c.blockSize ≤ 512 := by
  cases c <;> simp only [Coding.capacity, Coding.blockSize, blockOffset] at h ⊢ <;> omega

theorem encodeBlock_length (c : Coding) (f : Frame) : 80 * (encodeBlock c f).length = c.blockSize * f.length := by
  cases c with
  | mu => simp [encodeBlock, Coding.blockSize]
  | a => simp [encodeBlock, Coding.blockSize]
  | lin16 =>
    have hlen : (f.flatMap fun x => bytes16 (encodeLin x)).length = 2 * f.length := by
      induction f with
      | nil => rfl
      | cons x xs ih => rw [List.flatMap_cons, List.length_append, ih, List.length_cons, bytes16]; simp; omega
    simp only [encodeBlock, Coding.blockSize, hlen]
    omega

theorem encodeBlock_length_le (c : Coding) {f : Frame} (h : f.length ≤ 80) : (encodeBlock c f).length ≤ c.blockSize := by
  have hlen := encodeBlock_length c f
  cases c <;> simp only [Coding.blockSize] at hlen ⊢ <;> omega

theorem silence_length : silence.length = 80 := List.length_replicate

theorem State.captureFrame_length (s : State) (ch : LineNo) (mode : Mode) (h : (s.port.get ch).lineFrame.length ≤ 80) :
    (s.captureFrame ch mode).length ≤ 80 := by
  unfold State.captureFrame State.deliveredFrame applyGain
  dsimp only
  split
  · exact silence_length.le
  · rw [List.length_map]
    split
    · exact silence_length.le
    · exact h

/-! ### The start of a period (R86 to R88) -/

/-- The capture record of a period that starts at a frame (R86). -/
def Capture.started (c : Capture) (mode : Mode) : Capture :=
  { c with periodMode := mode, periodTs := c.tsCounter, frames := 0, spurt := c.spurt || c.state == .silent, state := .packing }

/-- The capture record of an open channel once its frame is judged (R83). -/
def Capture.judged (c : Capture) (mode : Mode) (active : Bool) : Capture :=
  { c with inactive := inactiveAfter mode active c.inactive }

theorem State.captureStep_eq (s : State) (ch : LineNo) :
    s.captureStep ch =
      let f := s.captureFrame ch (s.frameMode ch)
      let active := frameActive (s.chan.get ch).params.vadThreshold f
      ((s.setCap ch ((s.cap.get ch).judged (s.frameMode ch) active)).periodStep ch (s.frameMode ch) active f).appendHistory ch f := rfl

/-- The part with the oldest spare cell claimed for a channel's outbound parcel (R18). -/
def State.withClaimed (s : State) (ch : LineNo) (n : CellNo) (rest : List CellNo) : State :=
  { s with ex := { s.ex with
    spare := rest
    keeping := tablePut s.ex.keeping n.val { role := .assembly ch, clash := ((s.keptAt n.val).map Kept.clash).getD false } } }

theorem State.claimOutbound_none {s : State} {ch : LineNo} (h : s.ex.spare.length ≤ s.ex.reserve) : s.claimOutbound ch = none :=
  (s.claim_none _ _).mpr h

theorem State.claimOutbound_some {s : State} {ch : LineNo} {n : CellNo} {rest : List CellNo} (hs : s.ex.spare = n :: rest)
    (hr : s.ex.reserve < rest.length + 1) : s.claimOutbound ch = some (n, s.withClaimed ch n rest) := by
  simp [State.claimOutbound, State.claim, hs, hr, State.setRole, State.setKept, State.withClaimed, State.keptAt]

theorem State.startPeriod_starved {s : State} {ch : LineNo} (mode : Mode) (h : s.ex.spare.length ≤ s.ex.reserve) :
    s.startPeriod ch mode = (s.setCap ch ((s.cap.get ch).started mode)).starvePeriod ch := by
  have hnone : (s.setCap ch ((s.cap.get ch).started mode)).claimOutbound ch = none := State.claimOutbound_none h
  unfold Capture.started at hnone ⊢
  unfold State.startPeriod
  simp only [hnone]

theorem State.startPeriod_claimed {s : State} {ch : LineNo} {n : CellNo} {rest : List CellNo} (mode : Mode)
    (hs : s.ex.spare = n :: rest) (hr : s.ex.reserve < rest.length + 1) :
    s.startPeriod ch mode =
      ((s.withClaimed ch n rest).setCap ch { (s.cap.get ch).started mode with
          assembly := some n
          starving := false
          periodQ := periodRedundancy mode (s.chan.get ch).params.redundancy (s.cap.get ch).history }).putRedundant n
        (s.chan.get ch).params.coding (s.chan.get ch).params.packing 0
        ((s.cap.get ch).history.take (periodRedundancy mode (s.chan.get ch).params.redundancy (s.cap.get ch).history)) := by
  have hsome : (s.setCap ch ((s.cap.get ch).started mode)).claimOutbound ch =
      some (n, (s.setCap ch ((s.cap.get ch).started mode)).withClaimed ch n rest) := State.claimOutbound_some hs hr
  unfold Capture.started at hsome ⊢
  unfold State.startPeriod
  simp only [hsome]
  simp [State.setCap, State.withClaimed, State.keptAt]

/-- A period starts starved, or with the oldest spare cell. -/
theorem State.claim_or_starve (s : State) : s.ex.spare.length ≤ s.ex.reserve ∨
    ∃ n rest, s.ex.spare = n :: rest ∧ s.ex.reserve < rest.length + 1 := by
  cases hs : s.ex.spare with
  | nil => exact .inl (Nat.zero_le _)
  | cons n rest =>
    rcases Nat.lt_or_ge s.ex.reserve (rest.length + 1) with h | h
    · exact .inr ⟨n, rest, rfl, h⟩
    · exact .inl h

/-- Redundant blocks are written into memory alone. -/
theorem State.putRedundant_eq (n : CellNo) (coding : Coding) (packing : Nat) (fs : List Frame) : ∀ (s : State) (k : Nat),
    s.putRedundant n coding packing k fs = { s with mem := (s.putRedundant n coding packing k fs).mem } := by
  induction fs with
  | nil => exact fun s k => rfl
  | cons f fs ih =>
    intro s k
    have h := ih (s.putBlock n coding (packing + k) f) (k + 1)
    unfold State.putRedundant
    rw [h]
    rfl

theorem periodRedundancy_le (mode : Mode) (redundancy : Nat) (history : List Frame) :
    periodRedundancy mode redundancy history ≤ redundancy := by
  cases mode with
  | speech => exact Nat.zero_le _
  | steady => exact Nat.min_le_left _ _

end Sys2Proof.Machine

/-! ## The proof of O56: the scratch area, the tables and the cells outside the keeping (R1, R5, R13, R191) -/

namespace Sys2Proof.Machine

/-! ### The scratch area and the tables -/

/-- Memory that is in canonical form and, from 007Eh to 03FFh, reads as another. -/
def Memory.tablesAs (m0 m : Memory) : Prop := m.wf = true ∧ ∀ a, 0x7E ≤ a → a < 0x400 → m.read a = m0.read a

theorem keptByPart_tablesAs (m0 : Memory) : KeptByPart fun s => m0.tablesAs s.mem := by
  refine keptByPart_of_writes (P := m0.tablesAs) ?_
  rintro m a b ha ⟨hwf, hread⟩
  exact ⟨m.wf_write a b hwf, fun x hlow hhigh => (m.read_write_other b hwf (by omega)).trans (hread x hlow hhigh)⟩

/-- Every command but a host write and a power-on reset leaves the scratch area and the tables. -/
theorem State.Effect.tablesAs {m0 : Memory} {s t : State} {c : Instr} (h : s.Effect c t)
    (hwrite : ∀ half lanes data, c ≠ .hostMemoryWrite half lanes data) (hreset : ∀ ram, c ≠ .powerOnReset ram)
    (hs : m0.tablesAs s.mem) : m0.tablesAs t.mem := by
  refine (keptByPart_tablesAs m0).effect h hs ?_ ?_ ?_ ?_ ?_ ?_
  · exact fun ram hc => absurd hc (hreset ram)
  · intro lanes data
    rwa [State.writeRunctl_mem]
  · intro lanes data
    rwa [State.writeAttnctl_mem]
  · intro t after
    rwa [State.operateTally_mem]
  · exact fun half lanes data hc => absurd hc (hwrite half lanes data)
  · intro line _ _
    rwa [(s.lineSamples line).advanceClock_fields.1]

/-! ### Cells outside the keeping -/

/-- The addresses of a cell: its stamp and its 512 bytes (R1). -/
def cellSpace (n : CellNo) (a : Nat) : Prop := a = n.val ∨ ∃ off, off < 512 ∧ a = cellAddr n off

theorem cellSpace_disjoint {n m : CellNo} {a : Nat} (h : n ≠ m) (hn : cellSpace n a) : ¬ cellSpace m a := by
  have hne : n.val ≠ m.val := fun e => h (Fin.ext e)
  rintro (rfl | ⟨off, hoff, rfl⟩)
  · rcases hn with hn | ⟨off', -, hn⟩
    · exact hne hn.symm
    · exact absurd hn (val_lt_cellAddr m n off').ne
  · rcases hn with hn | ⟨off', hoff', hn⟩
    · exact absurd hn (val_lt_cellAddr n m off).ne'
    · unfold cellAddr at hn
      omega

/-- A state in which the part holds cells of a set alone, and has written no other since memory was `m0`. -/
structure State.Confined (K : CellNo → Prop) (m0 : Memory) (s : State) : Prop where
  wf : s.mem.wf = true
  rising : tableRising s.ex.keeping = true
  outside : ∀ n, ¬ K n → ∀ a, cellSpace n a → s.mem.read a = m0.read a
  kept : ∀ n : CellNo, s.isKept n.val = true → K n
  spare : ∀ n ∈ s.ex.spare, K n
  sheet : ∀ n, s.marks.sheet = some n → K n
  assembly : ∀ ch n, (s.cap.get ch).assembly = some n → K n

section Confined

variable {K : CellNo → Prop} {m0 : Memory} {s : State}

/-- Nothing but memory, the exchange unit, the mark writer and the assembly cells matters. -/
theorem State.Confined.congr (h : s.Confined K m0) {t : State} (hmem : t.mem = s.mem) (hex : t.ex = s.ex) (hmarks : t.marks = s.marks)
    (hcap : ∀ ch, (t.cap.get ch).assembly = (s.cap.get ch).assembly) : t.Confined K m0 where
  wf := hmem ▸ h.wf
  rising := hex ▸ h.rising
  outside := hmem ▸ h.outside
  kept := fun n hn => h.kept n (by rwa [State.isKept, State.keptAt, hex] at hn)
  spare := hex ▸ h.spare
  sheet := hmarks ▸ h.sheet
  assembly := fun ch n hn => h.assembly ch n (hcap ch ▸ hn)

/-- A capture record replaced, its assembly cell one of the set. -/
theorem State.Confined.setCap (h : s.Confined K m0) (ch : LineNo) (c : Capture) (hc : ∀ n, c.assembly = some n → K n) :
    (s.setCap ch c).Confined K m0 :=
  { h with
    kept := h.kept
    assembly := fun m n hn => by
      rw [State.setCap_cap, Four.get_set] at hn
      split at hn
      · exact hc n hn
      · exact h.assembly m n hn }

theorem State.Confined.writeList (h : s.Confined K m0) {n : CellNo} (hn : K n) {off : Nat} {bs : List Byte}
    (hfit : off + bs.length ≤ 512) {m : CellNo} (hm : ¬ K m) {a : Nat} (ha : cellSpace m a) :
    (s.mem.writeList (cellAddr n off) bs).read a = m0.read a := by
  rw [Memory.read_writeList_outside bs _ _ _ h.wf, h.outside m hm a ha]
  by_contra hin
  refine cellSpace_disjoint (n := m) (m := n) (fun e => hm (e ▸ hn)) ha (.inr ⟨a - cellAddr n 0, ?_⟩)
  unfold cellAddr at hin ⊢
  omega

theorem State.Confined.putCell (h : s.Confined K m0) {n : CellNo} (hn : K n) {off : Nat} {bs : List Byte}
    (hfit : off + bs.length ≤ 512) : (s.putCell n off bs).Confined K m0 :=
  { h with
    wf := Memory.wf_writeList _ _ _ h.wf
    kept := h.kept
    outside := fun _ hm _ ha => h.writeList hn hfit hm ha }

theorem State.Confined.putBlock (h : s.Confined K m0) {n : CellNo} (hn : K n) {c : Coding} {block : Nat} {f : Frame}
    (hb : block < c.capacity) (hf : f.length ≤ 80) : (s.putBlock n c block f).Confined K m0 := by
  have hfit := c.block_fits hb
  have hlen := encodeBlock_length_le c hf
  exact h.putCell hn (by omega)

theorem State.Confined.handOver (h : s.Confined K m0) {n : CellNo} (hn : K n) (b : Byte) : (s.handOver n b).Confined K m0 :=
  { h with
    wf := Memory.wf_write _ _ _ h.wf
    rising := tableRising_drop _ h.rising
    outside := fun m hm a ha => by
      rw [State.handOver_mem, Memory.read_write_other _ _ h.wf, h.outside m hm a ha]
      rintro rfl
      exact cellSpace_disjoint (fun e => hm (by rwa [e])) ha (.inl rfl)
    kept := fun m hm => h.kept m (by
      rw [State.isKept, State.keptAt_handOver _ _ _ _ h.rising] at hm
      split at hm
      · cases hm
      · exact hm) }

theorem State.Confined.setKept (h : s.Confined K m0) {n : CellNo} (hn : K n) (k : Kept) : (s.setKept n k).Confined K m0 :=
  { h with
    rising := tableRising_put _ _ h.rising
    kept := fun m hm => by
      by_cases e : m = n
      · exact e ▸ hn
      · exact h.kept m (by rwa [State.isKept, State.keptAt_setKept_other _ _ _ fun hv => e (Fin.ext hv)] at hm) }

theorem State.Confined.closeSheet (h : s.Confined K m0) : s.closeSheet.Confined K m0 := by
  cases hc : s.marks.sheet with
  | none => rwa [State.closeSheet_none hc]
  | some c =>
    have hK := h.sheet c hc
    have hout := (h.putCell hK (off := 0) (bs := byteOf s.marks.count :: List.replicate 31 0) (by simp)).handOver hK stampOutMarks
    rw [State.closeSheet_some hc]
    exact { hout with kept := hout.kept, sheet := fun _ hn => nomatch hn }

theorem State.Confined.writeMark (m : Mark) (h : s.Confined K m0) (hcount : s.marks.count < 28) :
    (s.writeMark m).Confined K m0 ∧ (s.writeMark m).marks.count < 28 := by
  cases hc : s.marks.sheet with
  | none => rw [State.writeMark_none m hc]; exact ⟨h, hcount⟩
  | some c =>
    have hput := h.putCell (h.sheet c hc) (off := 32 + 16 * s.marks.count) (bs := m.record) (by rw [m.record_length]; omega)
    have hrecord : (s.recordMark c m).Confined K m0 := { hput with kept := hput.kept }
    rw [State.writeMark_some m hc]
    split
    · refine ⟨hrecord.closeSheet, ?_⟩
      rw [State.closeSheet_some (s := s.recordMark c m) hc]
      exact Nat.zero_lt_succ _
    · next hfull => exact ⟨hrecord, Nat.succ_lt_succ (Nat.not_le.mp hfull)⟩

theorem State.Confined.openSheet {u : State} (ho : s.openSheet = some u) (h : s.Confined K m0) :
    u.Confined K m0 ∧ u.marks.count < 28 := by
  obtain ⟨c, rest, hs, rfl⟩ := State.openSheet_eq ho
  have hc : K c := h.spare c (hs ▸ List.mem_cons_self)
  have hset := h.setKept hc { role := .markSheet, clash := ((s.keptAt c.val).map Kept.clash).getD false }
  exact ⟨{ hset with
    kept := hset.kept
    spare := fun n hn => h.spare n (hs ▸ List.mem_cons_of_mem c hn)
    sheet := fun n hn => Option.some.inj hn ▸ hc }, Nat.zero_lt_succ _⟩

theorem State.Confined.giveMark (m : Mark) (h : s.Confined K m0) (hcount : s.marks.count < 28) :
    (s.giveMark m).Confined K m0 ∧ (s.giveMark m).marks.count < 28 :=
  State.giveMark_keeps (P := fun u => u.Confined K m0 ∧ u.marks.count < 28) (fun _ m hu => hu.1.writeMark m hu.2)
    (fun _ _ _ ho hu => hu.1.openSheet ho) (fun _ _ _ _ _ hu => ⟨{ hu.1 with kept := hu.1.kept }, hu.2⟩) s m ⟨h, hcount⟩

theorem State.closeSheet_count (h : s.marks.count < 28) : s.closeSheet.marks.count < 28 := by
  cases hc : s.marks.sheet with
  | none => rwa [State.closeSheet_none hc]
  | some c => rw [State.closeSheet_some hc]; exact Nat.zero_lt_succ _

theorem State.Confined.markBoundary (h : s.Confined K m0) (hcount : s.marks.count < 28) : s.markBoundary.Confined K m0 :=
  (State.markBoundary_keeps (P := fun u => u.Confined K m0 ∧ u.marks.count < 28) (fun _ m hu => hu.1.writeMark m hu.2)
    (fun _ _ _ ho hu => hu.1.openSheet ho) (fun _ _ _ _ _ hu => ⟨{ hu.1 with kept := hu.1.kept }, hu.2⟩)
    (fun _ hu => ⟨hu.1.closeSheet, State.closeSheet_count hu.2⟩) s ⟨h, hcount⟩).1

theorem State.Confined.lineStep {t : State} (hl : s.LineStep t) (h : s.Confined K m0) (hcount : s.marks.count < 28) :
    t.Confined K m0 :=
  (hl.keeps (P := fun u => u.Confined K m0 ∧ u.marks.count < 28) (fun _ m hu => hu.1.giveMark m hu.2)
    (fun _ _ _ hcap _ _ hu => ⟨hu.1.congr rfl rfl rfl fun ch => by rw [State.graft, hcap], hu.2⟩) ⟨h, hcount⟩).1

theorem State.Confined.dropRef (n : CellNo) (h : s.Confined K m0) : (s.dropRef n).Confined K m0 := by
  unfold State.dropRef
  split
  · next ch refs clash hk =>
    have hn : K n := h.kept n (by rw [State.isKept, hk]; rfl)
    split
    · exact h.handOver hn _
    · exact h.setKept hn _
  · exact h

theorem State.Confined.setChan (h : s.Confined K m0) (ch : LineNo) (c : Channel) : (s.setChan ch c).Confined K m0 :=
  h.congr rfl rfl rfl fun _ => rfl

theorem State.Confined.handFrames (h : s.Confined K m0) (ch : LineNo) (out : Frame) (far : Option Frame) :
    (s.handFrames ch out far).Confined K m0 :=
  h.congr (by simp) (by simp) (by simp) fun m => by simp

theorem State.Confined.playBoundary (h : s.Confined K m0) (ch : LineNo) : (s.playBoundary ch).Confined K m0 := by
  have htrim : (s.trimStep ch).Confined K m0 := by
    unfold State.trimStep
    dsimp only
    split
    · exact h.setChan ch _
    · exact (h.setChan ch _).dropRef _
  have hordinary : ∀ u : State, u.Confined K m0 → (u.ordinaryBoundary ch).Confined K m0 := by
    intro u hu
    unfold State.ordinaryBoundary
    dsimp only
    split
    · exact ((hu.setChan ch _).dropRef _).handFrames ch _ _
    · split
      · exact (hu.setChan ch _).handFrames ch _ _
      · exact (hu.setChan ch _).handFrames ch _ _
  unfold State.playBoundary
  dsimp only
  split
  · exact h
  · exact h.handFrames ch _ _
  · split
    · exact (h.setChan ch _).handFrames ch _ _
    · split
      · exact hordinary _ htrim
      · exact hordinary _ h

theorem State.Confined.triggerEvent (h : s.Confined K m0) (hcount : s.marks.count < 28) (ch : LineNo) (cause : TriggerCause) :
    (s.triggerEvent ch cause).Confined K m0 := by
  unfold State.triggerEvent State.takeTrigger
  dsimp only
  split
  · split
    · refine (State.Confined.giveMark _ (State.Confined.congr h ?_ ?_ ?_ fun _ => ?_) ?_).1
      · rfl
      · rfl
      · rfl
      · rfl
      · exact hcount
    · exact h.congr rfl rfl rfl fun _ => rfl
  · exact h

/-! ### Capture within the cell claimed -/

theorem State.Confined.putRedundant {n : CellNo} (hn : K n) (coding : Coding) (packing : Nat) (fs : List Frame) :
    ∀ (s : State) (k : Nat), packing + k + fs.length ≤ coding.capacity → (∀ f ∈ fs, f.length ≤ 80) → s.Confined K m0 →
      (s.putRedundant n coding packing k fs).Confined K m0 := by
  induction fs with
  | nil => exact fun s k _ _ h => h
  | cons f fs ih =>
    intro s k hk hf h
    rw [List.length_cons] at hk
    obtain ⟨hf, hfs⟩ := List.forall_mem_cons.mp hf
    exact ih _ (k + 1) (by omega) hfs (h.putBlock hn (by omega) hf)

theorem State.Confined.starvePeriod (h : s.Confined K m0) (hcount : s.marks.count < 28) (ch : LineNo) : (s.starvePeriod ch).Confined K m0 := by
  have hset : ((s.setCap ch { s.cap.get ch with assembly := none, starving := true }).bump ch .starvedPeriods).Confined K m0 :=
    (h.setCap ch _ fun n hn => by cases hn).setChan ch _
  unfold State.starvePeriod
  dsimp only
  split
  · exact hset
  · exact (hset.giveMark _ hcount).1

theorem State.Confined.startPeriod (h : s.Confined K m0) (hcount : s.marks.count < 28) (ch : LineNo) (mode : Mode)
    (hcap : (s.chan.get ch).params.packing + (s.chan.get ch).params.redundancy ≤ (s.chan.get ch).params.coding.capacity)
    (hhist : ∀ f ∈ (s.cap.get ch).history, f.length ≤ 80) : (s.startPeriod ch mode).Confined K m0 := by
  rcases s.claim_or_starve with hstarve | ⟨n, rest, hs, hr⟩
  · rw [State.startPeriod_starved mode hstarve]
    exact (h.setCap ch ((s.cap.get ch).started mode) fun n hn => h.assembly ch n hn).starvePeriod hcount ch
  · have hn : K n := h.spare n (hs ▸ List.mem_cons_self)
    have hq := periodRedundancy_le mode (s.chan.get ch).params.redundancy (s.cap.get ch).history
    have hset := h.setKept hn { role := .assembly ch, clash := ((s.keptAt n.val).map Kept.clash).getD false }
    have hclaimed : (s.withClaimed ch n rest).Confined K m0 :=
      { hset with kept := hset.kept, spare := fun m hm => h.spare m (hs ▸ List.mem_cons_of_mem n hm) }
    rw [State.startPeriod_claimed mode hs hr]
    refine State.Confined.putRedundant hn _ _ _ _ 0 ?_ (fun f hf => hhist f (List.mem_of_mem_take hf))
      (hclaimed.setCap ch _ fun m hm => Option.some.inj hm ▸ hn)
    rw [List.length_take]
    omega

theorem outboundHeader_length (ch : LineNo) (p : OpenParams) (c : Capture) : (outboundHeader ch p c).length = 32 := by
  simp [outboundHeader, bytes16, bytes32]

theorem State.Confined.endPeriod (h : s.Confined K m0) (ch : LineNo) : (s.endPeriod ch).Confined K m0 := by
  have hsent : (s.sendHeld ch).Confined K m0 := by
    unfold State.sendHeld
    split
    · next n hn =>
      have hK := h.assembly ch n hn
      exact ((((h.putCell hK (off := 0) (by rw [outboundHeader_length]; omega)).setCap ch _ fun m hm => by cases hm).handOver hK
        stampOutParcel).setChan ch _)
    · exact h
  rw [State.endPeriod_eq]
  exact hsent.setCap ch _ fun n hn => hsent.assembly ch n hn

theorem State.Confined.joinPeriod (h : s.Confined K m0) (ch : LineNo) {f : Frame} (hf : f.length ≤ 80)
    (hframes : (s.cap.get ch).frames < (s.chan.get ch).params.coding.capacity) : (s.joinPeriod ch f).Confined K m0 := by
  have hcoded : ((s.codeFrame ch f).setCap ch { s.cap.get ch with frames := (s.cap.get ch).frames + 1 }).Confined K m0 := by
    refine State.Confined.setCap ?_ ch _ fun n hn => h.assembly ch n hn
    unfold State.codeFrame
    split
    · next n hn => exact h.putBlock (h.assembly ch n hn) hframes hf
    · exact h
  rw [State.joinPeriod_eq]
  split
  · exact hcoded.endPeriod ch
  · exact hcoded

end Confined

/-! ### A period just started (R86) -/

/-- A start of a period leaves the parameters, and no frame in the period. -/
theorem State.startPeriod_params (s : State) (ch : LineNo) (mode : Mode) :
    ((s.startPeriod ch mode).chan.get ch).params = (s.chan.get ch).params ∧ ((s.startPeriod ch mode).cap.get ch).frames = 0 := by
  rcases s.claim_or_starve with hstarve | ⟨n, rest, hs, hr⟩
  · rw [State.startPeriod_starved mode hstarve]
    unfold State.starvePeriod
    dsimp only
    split <;> simp [State.bump, State.giveLineMark, Capture.started]
  · rw [State.startPeriod_claimed mode hs hr, State.putRedundant_eq]
    simp [State.withClaimed, Capture.started]

theorem State.Confined.captureStep {K : CellNo → Prop} {m0 : Memory} {s : State} (h : s.Confined K m0)
    (hcount : s.marks.count < 28) (hc : s.captureOk) (ch : LineNo) : (s.captureStep ch).Confined K m0 := by
  obtain ⟨hpack, hcap, hframes, hhist, hline⟩ := hc ch
  have hf : ∀ mode, (s.captureFrame ch mode).length ≤ 80 := fun mode => s.captureFrame_length ch mode hline
  have hperiod : ∀ (mode : Mode) (active : Bool) (c : Capture), c.state = (s.cap.get ch).state → c.frames = (s.cap.get ch).frames →
      c.assembly = (s.cap.get ch).assembly → c.history = (s.cap.get ch).history →
      ((s.setCap ch c).periodStep ch mode active (s.captureFrame ch mode)).Confined K m0 := by
    intro mode active c hstate hfr hasm hh
    have hset : (s.setCap ch c).Confined K m0 := h.setCap ch c fun n hn => h.assembly ch n (hasm ▸ hn)
    have hstart : (((s.setCap ch c).startPeriod ch mode).joinPeriod ch (s.captureFrame ch mode)).Confined K m0 := by
      obtain ⟨hparams, hzero⟩ := (s.setCap ch c).startPeriod_params ch mode
      refine (hset.startPeriod hcount ch mode hcap (by simpa [hh] using hhist)).joinPeriod ch (hf mode) ?_
      rw [hparams, hzero]
      exact Nat.lt_of_lt_of_le hpack (Nat.le_trans (Nat.le_add_right _ _) hcap)
    unfold State.periodStep
    split
    · exact hset
    · next hp =>
      have hlt := hframes (by simpa [hstate] using hp)
      exact hset.joinPeriod ch (hf mode) (by simpa [hfr] using by omega)
    · exact hstart
    · split
      · exact hset
      · exact hstart
  have hstep := hperiod (s.frameMode ch) (frameActive (s.chan.get ch).params.vadThreshold (s.captureFrame ch (s.frameMode ch)))
    ((s.cap.get ch).judged (s.frameMode ch)
      (frameActive (s.chan.get ch).params.vadThreshold (s.captureFrame ch (s.frameMode ch)))) rfl rfl rfl rfl
  exact hstep.setCap ch _ fun n hn => hstep.assembly ch n hn

/-! ### The events and commands other than a sweep -/

theorem State.Confined.partEvent {K : CellNo → Prop} {m0 : Memory} {s : State} (h : s.Confined K m0)
    (hcount : s.marks.count < 28) (hc : s.captureOk) (e : PartEvent) : (s.partEvent e).Confined K m0 := by
  have hundue : ∀ x : Event, (s.undue x).Confined K m0 := fun x => h.congr rfl rfl rfl fun _ => rfl
  cases hl : lineSide e with
  | true => exact h.lineStep (s.lineStep_partEvent e hl) hcount
  | false =>
    cases e with
    | frameBoundary ch =>
      show (s.takeEvent (.frame ch) fun u => u.playBoundary ch).Confined K m0
      exact State.takeEvent_keeps h ((hundue _).playBoundary ch)
    | captureEvent ch =>
      show (s.takeEvent (.capture ch) fun u => if (u.chan.get ch).state = .closed then u else u.captureStep ch).Confined K m0
      refine State.takeEvent_keeps h ?_
      split
      · exact hundue _
      · exact (hundue (.capture ch)).captureStep hcount hc ch
    | toneTrigger ch cause => exact h.triggerEvent hcount ch cause
    | markWriter =>
      show (s.takeEvent .markWriter _).Confined K m0
      exact State.takeEvent_keeps h ((hundue .markWriter).markBoundary hcount)
    | farFrame p => cases hl
    | lineVerdict p => cases hl
    | lineScan p hook trip => cases hl
    | portTimer p => cases hl
    | cadenceTick p => cases hl
    | ringDrive p => cases hl

/-- A command other than a sweep, a host write and a power-on reset writes no cell outside the set. -/
theorem State.Effect.outside {K : CellNo → Prop} {m0 : Memory} {s t : State} {c : Instr} (he : s.Effect c t)
    (hwrite : ∀ half lanes data, c ≠ .hostMemoryWrite half lanes data) (hreset : ∀ ram, c ≠ .powerOnReset ram)
    (hsweep : ∀ work between, c ≠ .sweep work between) (h : s.Confined K m0)
    (hcount : s.marks.count < 28) (hc : s.captureOk) :
    ∀ n, ¬ K n → ∀ a, cellSpace n a → t.mem.read a = m0.read a := by
  cases he with
  | nothing => exact h.outside
  | event c e => exact (h.partEvent hcount hc e).outside
  | passFree p hr => exact (h.lineStep s.lineStep_passFree hcount).outside
  | powerOn ram => exact absurd rfl (hreset ram)
  | runctl c lanes data hc => rw [State.writeRunctl_mem]; exact h.outside
  | attnctl c lanes data => rw [State.writeAttnctl_mem]; exact h.outside
  | tally c t after => rw [State.operateTally_mem]; exact h.outside
  | hostWrite half lanes data => exact absurd rfl (hwrite half lanes data)
  | samplePeriod line hr => rw [(s.lineSamples line).advanceClock_fields.1]; exact h.outside
  | sweep work between ht => exact absurd rfl (hsweep work between)

/-! ### The obligation -/

/-- On a part in order, the cells the part holds are those of the keeping. -/
theorem State.confined_of_ok {s : State} (hm : s.memoryOk) (hk : s.keepingOk) :
    s.Confined (fun n => s.isKept n.val = true) s.mem := by
  obtain ⟨hrising, -, -, -, hspare, -, hassembly, hsheet, -⟩ := hk
  have held : ∀ {n : CellNo} {r : Role}, s.roleAt n = some r → s.isKept n.val = true := by
    intro n r hr
    obtain ⟨k, hkept, -⟩ := Option.map_eq_some_iff.mp hr
    rw [State.isKept, hkept]
    rfl
  exact {
    wf := hm
    rising := hrising
    outside := fun _ _ _ _ => rfl
    kept := fun _ hn => hn
    spare := fun n hn => held ((hspare n).mpr hn)
    sheet := fun n hn => held ((hsheet n).mpr hn)
    assembly := fun ch n hn => held ((hassembly n ch).mpr hn) }

/-- Settles O56: the tables, since the part writes stamps and the cell area alone; the cells outside the keeping, since every cell the part
writes in such a step is one it held before. -/
theorem stepLeavesScratchAndTablesAlone : Obligations.StepLeavesScratchAndTablesAlone := by
  intro s t c rest hm hp hwrite hreset hstep
  have he : ({ s with pending := rest } : State).Effect c t := by
    rw [step, hp] at hstep
    exact exec_effect hstep
  refine ⟨?tables, fun hs hc hk hsweep => ?cells⟩
  case tables =>
    exact (he.tablesAs (m0 := s.mem) hwrite hreset ⟨hm, fun _ _ _ => rfl⟩).2
  case cells =>
    have hconf : ({ s with pending := rest } : State).Confined (fun n => s.isKept n.val = true) s.mem :=
      (State.confined_of_ok hm hk).congr rfl rfl rfl fun _ => rfl
    have hout := he.outside hwrite hreset hsweep hconf hs.2.2.1 hc
    intro n hn
    have hout := hout n (by simpa using hn)
    exact ⟨hout n.val (.inl rfl), fun off hoff => hout _ (.inr ⟨off, hoff, rfl⟩)⟩

end Sys2Proof.Machine

/-! ## The proof of O57: the bounds of the stock, the mark writer and the capture sides (R17, R19, R25, R84 to R89, R175 to R178) -/

namespace Sys2Proof.Machine

/-! ### The events of the part, once more as one rule -/

/-- What line-side steps, an event spent, and the four events of the channel side and the mark writer keep is kept by every event. -/
theorem State.partEvent_keeps {P : State → Prop} {s : State} (hline : ∀ t, s.LineStep t → P s → P t)
    (hundue : ∀ e, P s → P (s.undue e)) (hframe : ∀ (s : State) (ch : LineNo), P s → P (s.playBoundary ch))
    (hcapture : ∀ (s : State) (ch : LineNo), (s.chan.get ch).state ≠ .closed → P s → P (s.captureStep ch))
    (htrigger : ∀ (ch : LineNo) (cause : TriggerCause), P s → P (s.triggerEvent ch cause))
    (hmark : ∀ s : State, P s → P s.markBoundary) (e : PartEvent) (hs : P s) : P (s.partEvent e) := by
  cases hl : lineSide e with
  | true => exact hline _ (s.lineStep_partEvent e hl) hs
  | false =>
    cases e with
    | frameBoundary ch =>
      show P (s.takeEvent (.frame ch) fun u => u.playBoundary ch)
      exact State.takeEvent_keeps hs (hframe _ ch (hundue _ hs))
    | captureEvent ch =>
      show P (s.takeEvent (.capture ch) fun u => if (u.chan.get ch).state = .closed then u else u.captureStep ch)
      refine State.takeEvent_keeps hs ?_
      split
      · exact hundue _ hs
      · next hopen => exact hcapture _ ch hopen (hundue _ hs)
    | toneTrigger ch cause => exact htrigger ch cause hs
    | markWriter =>
      show P (s.takeEvent .markWriter fun u => u.markBoundary)
      exact State.takeEvent_keeps hs (hmark _ (hundue _ hs))
    | farFrame p => cases hl
    | lineVerdict p => cases hl
    | lineScan p hook trip => cases hl
    | portTimer p => cases hl
    | cadenceTick p => cases hl
    | ringDrive p => cases hl

/-! ### The queue while a sheet is open (R177) -/

@[simp] theorem State.closeSheet_queue (s : State) : s.closeSheet.marks.queue = s.marks.queue := by
  cases hc : s.marks.sheet with
  | none => rw [State.closeSheet_none hc]
  | some c => rw [State.closeSheet_some hc]

@[simp] theorem State.writeMark_queue (s : State) (m : Mark) : (s.writeMark m).marks.queue = s.marks.queue := by
  cases hc : s.marks.sheet with
  | none => rw [State.writeMark_none m hc]
  | some c =>
    rw [State.writeMark_some m hc]
    split
    · rw [State.closeSheet_queue, State.recordMark]
    · rw [State.recordMark]

@[simp] theorem State.fillSheet_queue (s : State) : s.fillSheet.marks.queue = [] := by
  unfold State.fillSheet
  exact State.foldl_writeMark_keeps (P := fun u => u.marks.queue = []) (fun u m hu => (u.writeMark_queue m).trans hu) _ _ rfl

/-- No mark waits while a sheet is open. -/
def State.queueOk (s : State) : Prop := s.marks.sheet ≠ none → s.marks.queue = []

theorem State.queueOk_giveMark (s : State) (m : Mark) (h : s.queueOk) : (s.giveMark m).queueOk := by
  unfold State.giveMark
  split
  · next c hc => exact fun _ => (s.writeMark_queue m).trans (h (hc ▸ Option.some_ne_none c))
  · next hc =>
    split
    · next u hu => exact fun _ => (u.fillSheet.writeMark_queue m).trans u.fillSheet_queue
    · split
      · exact fun hsome => absurd hc hsome
      · exact fun hsome => absurd hc hsome

theorem State.queueOk_markBoundary (s : State) : s.markBoundary.queueOk := by
  unfold State.markBoundary
  dsimp only
  split
  · next hq => exact fun _ => List.isEmpty_iff.mp hq
  · split
    · next u hu => exact fun _ => u.fillSheet_queue
    · exact fun hsome => absurd s.closeSheet_sheet hsome

/-! ### The bounds of the stock and the mark writer -/

/-- The bounds of the stock and the mark writer, the queue's being empty while a sheet is open left aside. -/
def State.boundsOk (s : State) : Prop :=
  s.ex.spare.length ≤ 32 ∧ s.ex.reserve ≤ 4 ∧ s.marks.count < 28 ∧ s.marks.queue.length ≤ 16 ∧ s.marks.lost ≤ 65535

theorem State.stockOk_iff (s : State) : s.stockOk ↔ s.boundsOk ∧ s.queueOk := by
  unfold State.stockOk State.boundsOk State.queueOk
  tauto

theorem State.boundsOk_closeSheet (s : State) (h : s.boundsOk) : s.closeSheet.boundsOk := by
  cases hc : s.marks.sheet with
  | none => rwa [State.closeSheet_none hc]
  | some c =>
    obtain ⟨hspare, hreserve, hcount, hqueue, hlost⟩ := h
    rw [State.closeSheet_some hc]
    exact ⟨hspare, hreserve, Nat.zero_lt_succ _, hqueue, hlost⟩

theorem State.boundsOk_writeMark (s : State) (m : Mark) (h : s.boundsOk) : (s.writeMark m).boundsOk := by
  cases hc : s.marks.sheet with
  | none => rwa [State.writeMark_none m hc]
  | some c =>
    obtain ⟨hspare, hreserve, hcount, hqueue, hlost⟩ := h
    rw [State.writeMark_some m hc]
    split
    · rw [State.closeSheet_some (s := s.recordMark c m) hc]
      exact ⟨hspare, hreserve, Nat.zero_lt_succ _, hqueue, hlost⟩
    · next hfull => exact ⟨hspare, hreserve, Nat.succ_lt_succ (Nat.not_le.mp hfull), hqueue, hlost⟩

theorem State.boundsOk_openSheet (s u : State) (_ : s.marks.sheet = none) (hu : s.openSheet = some u) (h : s.boundsOk) : u.boundsOk := by
  obtain ⟨hspare, hreserve, hcount, hqueue, hlost⟩ := h
  obtain ⟨c, rest, hs, rfl⟩ := State.openSheet_eq hu
  exact ⟨by rw [hs, List.length_cons] at hspare; show rest.length ≤ 32; omega, hreserve, Nat.zero_lt_succ _, hqueue, hlost⟩

theorem State.boundsOk_tidy (s : State) (q : List Mark) (l : Nat) (hq : q.length ≤ 16 ∨ q = s.marks.queue)
    (hl : l ≤ 65535 ∨ l = s.marks.lost) (h : s.boundsOk) :
    State.boundsOk { s with marks := { s.marks with queue := q, lost := l } } := by
  obtain ⟨hspare, hreserve, hcount, hqueue, hlost⟩ := h
  exact ⟨hspare, hreserve, hcount, hq.elim id fun e => e ▸ hqueue, hl.elim id fun e => e ▸ hlost⟩

theorem keptByPart_stockOk : KeptByPart State.stockOk where
  frame := fun s t _ hex hmarks _ h => by rwa [State.stockOk, hex, hmarks]
  putCell := fun _ _ _ _ h => h
  stamp := fun _ _ h => h
  handOver := fun _ _ _ _ h => h
  setKept := fun _ _ _ h => h
  posts := fun _ _ h => h
  claim := fun s n rest hs h => by
    obtain ⟨hspare, hall⟩ := h
    rw [hs, List.length_cons] at hspare
    exact ⟨Nat.le_of_succ_le hspare, hall⟩
  join := fun s n hroom h => by
    obtain ⟨hspare, hall⟩ := h
    exact ⟨by simpa using hroom, hall⟩
  reserve := fun s v h => by
    obtain ⟨hspare, -, hall⟩ := h
    exact ⟨hspare, Nat.min_le_right v 4, hall⟩
  giveMark := fun s m h => by
    obtain ⟨hbounds, hqueue⟩ := s.stockOk_iff.mp h
    exact (s.giveMark m).stockOk_iff.mpr
      ⟨State.giveMark_keeps State.boundsOk_writeMark State.boundsOk_openSheet State.boundsOk_tidy s m hbounds, s.queueOk_giveMark m hqueue⟩
  markBoundary := fun s h => by
    obtain ⟨hbounds, -⟩ := s.stockOk_iff.mp h
    exact s.markBoundary.stockOk_iff.mpr
      ⟨State.markBoundary_keeps State.boundsOk_writeMark State.boundsOk_openSheet State.boundsOk_tidy State.boundsOk_closeSheet s hbounds,
        s.queueOk_markBoundary⟩

/-- What a reset gives, and what depends on exchange memory, the clock, the due events, the guard and the queue in nothing, a write of
RUNCTL keeps. -/
theorem State.writeRunctl_keeps {P : State → Prop} {s : State} (lanes : Lanes) (data : Half)
    (hreset : P { State.reset with mem := s.mem, pending := s.pending })
    (hguard : ∀ u : State, P u → P { u with ex := { u.ex with guard := false } })
    (hstart : ∀ u : State, P u → P u.start) (h : P s) : P (s.writeRunctl lanes data) := by
  unfold State.writeRunctl
  split
  · exact h
  · split
    · exact hreset
    · dsimp only
      split
      · split
        · exact hstart _ (hguard s h)
        · exact hguard s h
      · split
        · exact hstart s h
        · exact h

theorem State.writeAttnctl_keeps {P : State → Prop} {s : State} (lanes : Lanes) (data : Half)
    (hbus : ∀ b, P { s with bus := b }) : P (s.writeAttnctl lanes data) := by
  unfold State.writeAttnctl
  split
  · exact hbus s.bus
  · split
    · exact hbus _
    · exact hbus s.bus

theorem State.hostWrite_keeps {P : State → Prop} {s : State} (addr : Nat) (lanes : Lanes) (data : Half) (h : P s)
    (hguard : ∀ g a, P { s with ex := { s.ex with guard := g, guardAddr := a } })
    (hbyte : ∀ (u : State) (a : Nat) (b : Byte), P u → P (u.putByte a b)) : P (s.hostWrite addr lanes data) := by
  have hlow : P (if lanes.low then s.putByte addr (data.extractLsb' 0 8) else s) := by
    split
    · exact hbyte _ _ _ h
    · exact h
  unfold State.hostWrite
  split
  · exact h
  · split
    · unfold State.recordGuard
      split
      · exact h
      · exact hguard _ _
    · unfold State.storeLanes
      dsimp only
      split
      · exact hbyte _ _ _ hlow
      · exact hlow

theorem State.operateTally_keeps {P : State → Prop} {s : State} (t : Tally) (after : BitVec 8) (h : P s)
    (hbus : ∀ (u : State) (b : Bus), P u → P { u with bus := b }) (htally : ∀ (u : State) (v : BitVec 8), P u → P (u.setTally t v)) :
    P (s.operateTally t after) := by
  unfold State.operateTally
  split
  · exact hbus _ _ h
  · exact htally _ _ (hbus _ _ h)

theorem stockOk_reset : State.reset.stockOk := ⟨by decide, by decide, by decide, by decide, by decide, fun _ => rfl⟩

theorem State.stockOk_setTally (s : State) (t : Tally) (v : BitVec 8) (h : s.stockOk) : (s.setTally t v).stockOk := by
  cases t with
  | posts => exact h
  | ready => exact h

theorem State.Effect.keeps_stockOk {s t : State} {c : Instr} (h : s.Effect c t) (hs : s.stockOk) : t.stockOk := by
  refine keptByPart_stockOk.effect h hs ?_ ?_ ?_ ?_ ?_ ?_
  · rintro (_ | cells) -
    · exact stockOk_reset
    · exact stockOk_reset
  · exact fun lanes data => s.writeRunctl_keeps lanes data stockOk_reset (fun _ hu => hu) (fun _ hu => hu) hs
  · exact fun lanes data => s.writeAttnctl_keeps lanes data fun _ => hs
  · exact fun t after => State.operateTally_keeps t after hs (fun _ _ hu => hu) fun u v hu => u.stockOk_setTally t v hu
  · exact fun half lanes data _ => State.hostWrite_keeps _ lanes data hs (fun _ _ => hs) (fun _ _ _ hu => hu)
  · intro line _ _
    obtain ⟨-, hex, hmarks, -, -⟩ := (s.lineSamples line).advanceClock_fields
    rwa [State.stockOk, hex, hmarks]

/-! ### The capture sides -/

/-- The bounds of one channel's capture side: its parameters, its capture record and its port's line frame. -/
def captureSideOk (p : OpenParams) (c : Capture) (f : Frame) : Prop :=
  1 ≤ p.packing ∧ p.packing + p.redundancy ≤ p.coding.capacity ∧ (c.state = .packing → c.frames < p.packing) ∧
  (∀ f ∈ c.history, f.length ≤ 80) ∧ f.length ≤ 80

theorem State.captureOk_iff (s : State) :
    s.captureOk ↔ ∀ ch, captureSideOk (s.chan.get ch).params (s.cap.get ch) (s.port.get ch).lineFrame := Iff.rfl

/-- A channel's list flushed: every entry leaves it, in list order (R27, R38). -/
def State.flushed (s : State) (ch : LineNo) : State :=
  (s.setChan ch { s.chan.get ch with list := [] }).dropRefs (s.chan.get ch).list

theorem State.closeChannel_eq (s : State) (ch : LineNo) : s.closeChannel ch =
    ((s.flushed ch).closeCapture ch).setChan ch
      { ((s.flushed ch).closeCapture ch).chan.get ch with state := .closed, hold := 0, excess := 0, trim := false } := rfl

theorem State.resync_eq (s : State) (ch : LineNo) (early : Bool) (ts : Word) : s.resync ch early ts =
    let c := ((s.flushed ch).chan.get ch).realign ts
    ((s.flushed ch).setChan ch (({ c with state := .flowing, lateRun := 0, earlyRun := 0 }).bump .resyncs)).giveLineMark
      .resync ch (if early then 1 else 0) c.cursor := rfl

section Capture

variable {s : State}

/-- Nothing but the parameters, the capture records and the line frames matters. -/
theorem State.captureOk_congr {t : State} (h : s.captureOk) (hp : ∀ ch, (t.chan.get ch).params = (s.chan.get ch).params)
    (hc : t.cap = s.cap) (hl : ∀ ch, (t.port.get ch).lineFrame = (s.port.get ch).lineFrame) : t.captureOk := by
  intro ch
  rw [hp ch, hc, hl ch]
  exact h ch

theorem State.captureOk_setChan (h : s.captureOk) {ch : LineNo} {c : Channel} (hc : c.params = (s.chan.get ch).params) :
    (s.setChan ch c).captureOk := by
  refine State.captureOk_congr h (fun m => ?_) rfl fun _ => rfl
  rw [State.setChan_chan, Four.get_set]
  split
  · next e => rw [e, hc]
  · rfl

/-- One capture record replaced, and nothing else that matters changed. -/
theorem State.captureOk_replace {t : State} (h : s.captureOk) {ch : LineNo} {c : Capture} (ht : t.cap = s.cap.set ch c)
    (hp : ∀ m, (t.chan.get m).params = (s.chan.get m).params) (hl : ∀ m, (t.port.get m).lineFrame = (s.port.get m).lineFrame)
    (hstate : c.state = .packing → c.frames < (s.chan.get ch).params.packing) (hhist : ∀ f ∈ c.history, f.length ≤ 80) :
    t.captureOk := by
  intro m
  obtain ⟨hpack, hcap, -, -, hline⟩ := h m
  rw [hp, hl, ht]
  by_cases e : m = ch
  · rw [e, Four.get_set_same]
    exact ⟨by rwa [e] at hpack, by rwa [e] at hcap, hstate, hhist, by rwa [e] at hline⟩
  · rw [Four.get_set_other _ _ e]
    exact h m

theorem State.captureOk_setCap (h : s.captureOk) (ch : LineNo) {c : Capture}
    (hstate : c.state = .packing → c.frames < (s.chan.get ch).params.packing) (hhist : ∀ f ∈ c.history, f.length ≤ 80) :
    (s.setCap ch c).captureOk := State.captureOk_replace h rfl (fun _ => rfl) (fun _ => rfl) hstate hhist

theorem State.captureOk_giveMark (m : Mark) (h : s.captureOk) : (s.giveMark m).captureOk :=
  State.captureOk_congr h (fun ch => by rw [State.giveMark_chan]) (s.giveMark_cap m) fun ch => by rw [State.giveMark_port]

theorem State.captureOk_dropRefs (es : List Entry) (h : s.captureOk) : (s.dropRefs es).captureOk :=
  State.captureOk_congr h (by simp) (by simp) (by simp)

theorem State.captureOk_flushed (ch : LineNo) (h : s.captureOk) : (s.flushed ch).captureOk :=
  State.captureOk_dropRefs _ (State.captureOk_setChan h rfl)

theorem State.captureOk_handFrames (ch : LineNo) (out : Frame) (far : Option Frame) (h : s.captureOk) :
    (s.handFrames ch out far).captureOk := by
  refine State.captureOk_congr h (by simp) (by simp) fun m => ?_
  unfold State.handFrames
  cases far with
  | none => by_cases e : m = ch <;> simp [Four.get_set, e]
  | some f => by_cases e : m = ch <;> simp [Four.get_set, e]

theorem State.captureOk_playBoundary (s : State) (ch : LineNo) (h : s.captureOk) : (s.playBoundary ch).captureOk := by
  have hdrop : ∀ (u : State) (n : CellNo), u.captureOk → (u.dropRef n).captureOk := fun u n hu => State.captureOk_dropRefs [⟨0, n, 0, .mu, .primary⟩] hu
  have htrim : (s.trimStep ch).captureOk := by
    unfold State.trimStep
    dsimp only
    split
    · exact State.captureOk_setChan h rfl
    · exact hdrop _ _ (State.captureOk_setChan h rfl)
  have hordinary : ∀ u : State, u.captureOk → (u.ordinaryBoundary ch).captureOk := by
    intro u hu
    unfold State.ordinaryBoundary
    dsimp only
    split
    · exact State.captureOk_handFrames ch _ _ (hdrop _ _ (State.captureOk_setChan hu (by simp)))
    · split
      · exact State.captureOk_handFrames ch _ _ (State.captureOk_setChan hu (by simp))
      · exact State.captureOk_handFrames ch _ _ (State.captureOk_setChan hu (by simp))
  unfold State.playBoundary
  dsimp only
  split
  · exact h
  · exact State.captureOk_handFrames ch _ _ h
  · split
    · exact State.captureOk_handFrames ch _ _ (State.captureOk_setChan h rfl)
    · split
      · exact hordinary _ htrim
      · exact hordinary _ h

theorem State.captureOk_enterSteady (ch : LineNo) (explicit : Option Nat) (cause : Half) (h : s.captureOk) :
    (s.enterSteady ch explicit cause).1.captureOk := State.captureOk_giveMark _ (State.captureOk_setChan h rfl)

theorem State.captureOk_triggerEvent (ch : LineNo) (cause : TriggerCause) (h : s.captureOk) : (s.triggerEvent ch cause).captureOk := by
  unfold State.triggerEvent State.takeTrigger
  dsimp only
  split
  · split
    · exact State.captureOk_enterSteady ch none _ h
    · exact h
  · exact h

/-! ### A capture event keeps its own channel's bounds -/

theorem State.captureOk_startPeriod (ch : LineNo) (mode : Mode) (h : s.captureOk) : (s.startPeriod ch mode).captureOk := by
  obtain ⟨hpack, -, -, hhist, -⟩ := h ch
  rcases s.claim_or_starve with hstarve | ⟨n, rest, hs, hr⟩
  · have hstarved : ((s.setCap ch ((s.cap.get ch).started mode)).setCap ch
        { (s.cap.get ch).started mode with assembly := none, starving := true }).captureOk :=
      State.captureOk_setCap (State.captureOk_setCap h ch (by exact fun _ => hpack) (by exact hhist)) ch (by exact fun _ => hpack) (by exact hhist)
    rw [State.startPeriod_starved mode hstarve]
    unfold State.starvePeriod
    rw [State.setCap_cap, Four.get_set_same]
    dsimp only
    split
    · exact State.captureOk_setChan hstarved rfl
    · exact State.captureOk_giveMark _ (State.captureOk_setChan hstarved rfl)
  · rw [State.startPeriod_claimed mode hs hr, State.putRedundant_eq]
    have hclaimed : (s.withClaimed ch n rest).captureOk := h
    exact State.captureOk_setCap hclaimed ch (fun _ => hpack) hhist

/-- The end of a period changes the channel's capture record, to one out of its period with its history, and of the channels the
parcels-sent counter. -/
theorem State.endPeriod_capture (s : State) (ch : LineNo) : ∃ c : Capture, (s.endPeriod ch).cap = s.cap.set ch c ∧
    c.state ≠ .packing ∧ c.history = (s.cap.get ch).history ∧
    (∀ m, ((s.endPeriod ch).chan.get m).params = (s.chan.get m).params) ∧ (s.endPeriod ch).port = s.port := by
  have hafter : ∀ (mode : Mode) (i h : Nat), stateAfterPeriod mode i h ≠ .packing := by
    intro mode i h
    unfold stateAfterPeriod
    split
    · exact nofun
    · split <;> exact nofun
  rw [State.endPeriod_eq]
  unfold State.sendHeld
  split
  · refine ⟨_, Four.set_set .., hafter _ _ _, ?_, fun m => ?_, rfl⟩
    · simp [State.sendParcel, State.bump]
    · by_cases e : m = ch <;> simp [State.sendParcel, State.bump, Four.get_set, e]
  · exact ⟨_, rfl, hafter _ _ _, rfl, fun _ => rfl, rfl⟩

theorem State.captureOk_joinPeriod (ch : LineNo) (f : Frame) (h : s.captureOk) : (s.joinPeriod ch f).captureOk := by
  obtain ⟨-, -, -, hhist, -⟩ := h ch
  have hcoded : s.codeFrame ch f = { s with mem := (s.codeFrame ch f).mem } := by
    unfold State.codeFrame
    split
    · rfl
    · rfl
  rw [State.joinPeriod_eq, hcoded]
  split
  · obtain ⟨c, hcap, hstate, hh, hparams, hport⟩ := State.endPeriod_capture
      (({ s with mem := (s.codeFrame ch f).mem } : State).setCap ch { s.cap.get ch with frames := (s.cap.get ch).frames + 1 }) ch
    refine State.captureOk_replace h (hcap.trans (Four.set_set ..)) hparams (fun m => by rw [hport]; rfl) (fun hp => absurd hp hstate) ?_
    rw [hh, State.setCap_cap, Four.get_set_same]
    exact hhist
  · next hmore => exact State.captureOk_replace h rfl (fun _ => rfl) (fun _ => rfl) (fun _ => Nat.not_le.mp hmore) hhist

theorem State.captureOk_captureStep (ch : LineNo) (h : s.captureOk) : (s.captureStep ch).captureOk := by
  obtain ⟨-, -, hframes, hhist, hline⟩ := h ch
  have hperiod : ∀ (u : State) (mode : Mode) (active : Bool) (f : Frame), u.captureOk → (u.periodStep ch mode active f).captureOk := by
    intro u mode active f hu
    unfold State.periodStep
    split
    · exact hu
    · exact State.captureOk_joinPeriod ch f hu
    · exact State.captureOk_joinPeriod ch f (State.captureOk_startPeriod ch mode hu)
    · split
      · exact hu
      · exact State.captureOk_joinPeriod ch f (State.captureOk_startPeriod ch mode hu)
  have hstep := hperiod _ (s.frameMode ch)
    (frameActive (s.chan.get ch).params.vadThreshold (s.captureFrame ch (s.frameMode ch)))
    (s.captureFrame ch (s.frameMode ch)) (State.captureOk_setCap h ch (c := (s.cap.get ch).judged (s.frameMode ch)
      (frameActive (s.chan.get ch).params.vadThreshold (s.captureFrame ch (s.frameMode ch)))) hframes hhist)
  obtain ⟨-, -, hframes', hhist', -⟩ := hstep ch
  rw [State.captureStep_eq]
  refine State.captureOk_setCap hstep ch hframes' fun f hf => ?_
  rcases List.mem_cons.mp (List.mem_of_mem_take hf) with rfl | hf
  · exact s.captureFrame_length ch _ hline
  · exact hhist' f hf

/-! ### Orders, arrivals and sweeps -/

/-- The parameters that CHANNEL_OPEN stores are those of a capture side in its bounds (R25). -/
theorem OpenParams.inRange_capture (r : OpenParams) : 1 ≤ r.inRange.packing ∧
    r.inRange.packing + r.inRange.redundancy ≤ r.inRange.coding.capacity := by
  have hc : 1 ≤ r.coding.capacity := by cases r.coding <;> decide
  have hp : 1 ≤ clampNat r.packing 1 r.coding.capacity ∧ clampNat r.packing 1 r.coding.capacity ≤ r.coding.capacity := by
    rw [clampNat_eq_max_min hc]
    omega
  simp only [OpenParams.inRange]
  omega

theorem State.captureOk_openChannel (ch : LineNo) (r : OpenParams) (h : s.captureOk) : (s.openChannel ch r.inRange).captureOk := by
  intro m
  obtain ⟨hpack, hcap⟩ := r.inRange_capture
  obtain ⟨-, -, -, -, hline⟩ := h m
  by_cases e : m = ch
  · subst e
    simp only [State.openChannel, State.setVerdict_chan, State.setPort_chan, State.setCap_chan, State.setChan_chan, Four.get_set_same,
      State.setVerdict_cap, State.setPort_cap, State.setCap_cap, State.setVerdict_port, State.setPort_port, State.setChan_cap,
      State.setChan_port, State.setCap_port]
    exact ⟨hpack, hcap, fun hp => by simp [Capture.opened] at hp, by simp [Capture.opened], hline⟩
  · simp only [State.openChannel, State.setVerdict_chan, State.setPort_chan, State.setCap_chan, State.setChan_chan,
      State.setVerdict_cap, State.setPort_cap, State.setCap_cap, State.setVerdict_port, State.setPort_port, State.setChan_cap,
      State.setChan_port, State.setCap_port, Four.get_set_other _ _ e]
    exact h m

theorem State.captureOk_closeChannel (ch : LineNo) (h : s.captureOk) : (s.closeChannel ch).captureOk := by
  have hclose : ∀ u : State, u.captureOk → (u.closeCapture ch).captureOk := by
    intro u hu
    unfold State.closeCapture
    dsimp only
    split
    · exact State.captureOk_setCap (s := u.handOver _ _) hu ch nofun (by simp)
    · exact State.captureOk_setCap hu ch nofun (by simp)
  rw [State.closeChannel_eq]
  exact State.captureOk_setChan (hclose _ (State.captureOk_flushed ch h)) (by rfl)

theorem State.captureOk_lineStep {t : State} (hl : s.LineStep t) (h : s.captureOk) : t.captureOk :=
  State.captureOk_congr h (fun ch => by rw [hl.chan]) hl.cap hl.lineFrame

theorem State.captureOk_orderRun {t : State} {n : CellNo} {count : Nat} (ho : s.OrderRun n count t) (h : s.captureOk) : t.captureOk := by
  rcases ho.lineStep_or_channelRun with ho | ho
  · exact State.captureOk_lineStep ho h
  · cases ho with
    | channelOpen ch raw hc => exact State.captureOk_openChannel ch raw h
    | channelClose ch hc => exact State.captureOk_closeChannel ch h
    | enterSteady ch explicit hc hm => exact State.captureOk_enterSteady ch explicit _ h
    | reapplySteady ch explicit hc hm =>
      unfold State.reapplySteady
      dsimp only
      split
      · exact State.captureOk_setChan h rfl
      · split
        · exact h
        · exact h
    | returnToSpeech ch hc hm => exact State.captureOk_setChan (State.captureOk_giveMark _ h) rfl
    | snapshot ch off clear hlow hhigh =>
      cases clear with
      | true => exact State.captureOk_setChan (s := s.putCell n off (s.chan.get ch).snapshot) h rfl
      | false => exact h
    | reserve v => exact h

theorem Channel.alignment_params (c : Channel) (hd : ParcelHeader) : (c.alignment hd).2.params = c.params := by
  unfold Channel.alignment
  split
  · rfl
  · split
    · rfl
    · rfl

theorem Channel.jitterStepFor_params (c : Channel) (kind : ParcelKind) (t : Word) : (c.jitterStepFor kind t).params = c.params := by
  unfold Channel.jitterStepFor
  split <;> rfl

theorem Channel.placeBlock_params (n : CellNo) (coding : Coding) (acc : Channel × Nat) (b : Block) :
    (Channel.placeBlock n coding acc b).1.params = acc.1.params := by
  unfold Channel.placeBlock
  dsimp only
  split <;> repeat' split
  all_goals rfl

theorem Channel.placeBlocks_params (c : Channel) (n : CellNo) (coding : Coding) (bs : List Block) :
    (c.placeBlocks n coding bs).1.params = c.params := by
  have hfold : ∀ (bs : List Block) (acc : Channel × Nat), (bs.foldl (Channel.placeBlock n coding) acc).1.params = acc.1.params := by
    intro bs
    induction bs with
    | nil => exact fun acc => rfl
    | cons b bs ih => exact fun acc => (ih _).trans (Channel.placeBlock_params n coding acc b)
  unfold Channel.placeBlocks
  dsimp only
  split <;> exact hfold bs (c, 0)

theorem State.captureOk_arrive (ch : LineNo) (n : CellNo) (coding : Coding) (hd : ParcelHeader) (h : s.captureOk) :
    (s.arrive ch n coding hd).captureOk := by
  have hmove : ∀ (u : State) (kind : ParcelKind), u.captureOk → (u.moveCursor ch kind hd.ts).captureOk := by
    intro u kind hu
    cases kind with
    | anchoring => exact State.captureOk_setChan hu rfl
    | reanchoring => exact State.captureOk_setChan hu rfl
    | ordinary => exact hu
    | resync early =>
      rw [State.moveCursor, State.resync_eq]
      exact State.captureOk_giveMark _ (State.captureOk_setChan (State.captureOk_flushed ch hu) (by rfl))
  have hplace : ∀ u : State, u.captureOk → (u.placeParcel ch n coding hd.blocks).captureOk := by
    intro u hu
    have hput := State.captureOk_setChan hu ((u.chan.get ch).placeBlocks_params n coding hd.blocks)
    unfold State.placeParcel
    dsimp only
    split
    · exact hput
    · exact hput
  refine hplace _ (hmove _ _ (State.captureOk_setChan h ?_))
  rw [Channel.jitterStepFor_params, Channel.alignment_params]

theorem State.captureOk_sweepWork (h : s.captureOk) : s.sweepWork.captureOk := by
  refine s.sweepWork_keeps State.captureOk (fun _ _ hu => hu) (fun u line hu => ?_) h
  unfold State.passSample
  split
  · exact hu
  · exact State.captureOk_congr hu (fun _ => rfl) rfl fun m => by simp [State.lineSamples, State.countSample]

theorem State.captureOk_takeCell (n : CellNo) (posted : Byte) (h : s.captureOk) : (s.takeCell n posted).captureOk := by
  have hsheet : ∀ u : State, u.captureOk → (u.runSheet n).captureOk := by
    intro u hu
    unfold State.runSheet
    dsimp only
    split
    · exact hu
    · exact State.runEntries_keeps (P := State.captureOk) (fun _ hv => State.captureOk_sweepWork hv)
        (fun _ _ ho hv => State.captureOk_orderRun ho hv) (fun _ _ _ _ hv => hv) _ 0 u (by omega) hu
  have hspare : ∀ u : State, u.captureOk → (u.joinSpare n).captureOk := by
    intro u hu
    unfold State.joinSpare
    split
    · exact hu
    · exact hu
  have hparcel : ∀ u : State, u.captureOk → (u.dispatchParcel n).captureOk := by
    intro u hu
    unfold State.dispatchParcel
    dsimp only
    split
    · exact hu
    · exact State.captureOk_arrive _ n _ _ hu
  have htaken : s.sweepWork.captureOk := State.captureOk_sweepWork h
  unfold State.takeCell State.dispatch
  dsimp only
  split
  · exact hparcel _ htaken
  · split
    · exact hsheet _ htaken
    · exact hspare _ htaken

theorem State.captureOk_clash (n : CellNo) (k : Kept) (posted : Byte) (h : s.captureOk) : (s.clash n k posted).captureOk := by
  unfold State.clash
  split
  · exact h
  · exact State.captureOk_giveMark _ (s := s.sweepWork.setKept n _) (State.captureOk_sweepWork h)

/-- The mark writer's boundary changes memory, the exchange unit and the mark writer alone. -/
theorem State.markBoundary_eq (s : State) : s.markBoundary = s.graft s.markBoundary := by
  refine State.markBoundary_keeps (P := fun u => u = s.graft u) (fun u m hu => ?_) (fun u v _ hv hu => ?_) (fun u q l _ _ hu => ?_)
    (fun u hu => ?_) s rfl
  · rw [← State.writeMark_graft, ← hu]
  · have ho := State.openSheet_graft s u
    rw [← hu, hv] at ho
    exact Option.some.inj ho
  · show ({ u with marks := { u.marks with queue := q, lost := l } } : State) = { s.graft u with marks := { u.marks with queue := q, lost := l } }
    rw [← hu]
  · rw [← State.closeSheet_graft, ← hu]

theorem State.captureOk_markBoundary (h : s.captureOk) : s.markBoundary.captureOk := by
  rw [State.markBoundary_eq]
  exact h

theorem State.captureOk_partEvent (e : PartEvent) (h : s.captureOk) : (s.partEvent e).captureOk :=
  State.partEvent_keeps (P := State.captureOk) (fun _ hl hs => State.captureOk_lineStep hl hs) (fun _ hs => hs)
    State.captureOk_playBoundary (fun _ ch _ hu => State.captureOk_captureStep ch hu)
    (fun ch cause hs => State.captureOk_triggerEvent ch cause hs) (fun _ hu => State.captureOk_markBoundary hu) e h

theorem State.captureOk_advanceClock (h : s.captureOk) : s.advanceClock.captureOk := by
  have hboundary : ∀ u : State, u.captureOk → u.reachBoundary.captureOk := by
    intro u hu m
    obtain ⟨hpack, hcap, hframes, hhist, -⟩ := hu m
    refine ⟨hpack, hcap, hframes, hhist, ?_⟩
    simp only [State.reachBoundary, Four.get_mapIdx, List.length_reverse, List.length_take]
    omega
  have hcounted : s.countSample.captureOk := h
  have hscan : s.countSample.reachScan.captureOk := h
  unfold State.advanceClock
  dsimp only
  split
  · split
    · exact hboundary _ hscan
    · exact hscan
  · split
    · exact hboundary _ hcounted
    · exact hcounted

end Capture

theorem captureOk_reset : State.reset.captureOk := by
  unfold State.captureOk
  decide

theorem State.Effect.keeps_captureOk {s t : State} {c : Instr} (h : s.Effect c t) (hs : s.captureOk) : t.captureOk := by
  cases h with
  | nothing => exact hs
  | event c e => exact State.captureOk_partEvent e hs
  | passFree p hr => exact State.captureOk_lineStep s.lineStep_passFree hs
  | powerOn ram =>
    cases ram with
    | none => exact captureOk_reset
    | some cells => exact captureOk_reset
  | runctl c lanes data hc => exact s.writeRunctl_keeps lanes data captureOk_reset (fun _ hu => hu) (fun _ hu => hu) hs
  | attnctl c lanes data => exact s.writeAttnctl_keeps lanes data fun _ => hs
  | tally c t after =>
    refine State.operateTally_keeps t after hs (fun _ _ hu => hu) fun u v hu => ?_
    cases t with
    | posts => exact hu
    | ready => exact hu
  | hostWrite half lanes data => exact State.hostWrite_keeps _ lanes data hs (fun _ _ => hs) fun _ _ _ hu => hu
  | samplePeriod line hr =>
    have hline : (s.lineSamples line).captureOk :=
      State.captureOk_congr hs (fun _ => rfl) rfl fun m => by simp [State.lineSamples]
    exact State.captureOk_advanceClock hline
  | sweep work between ht =>
    exact State.sweepStep_keeps (P := State.captureOk) work between (fun _ _ hu => hu) (fun _ hu => hu)
      (fun _ e hu => State.captureOk_partEvent e hu) (fun _ n k _ hu => State.captureOk_clash n k _ hu)
      (fun _ n _ _ hu => State.captureOk_takeCell n _ hu) (s.undue .sweep) hs

/-- Settles O57: the stock and the mark writer change by their own bounded steps alone, a capture side by its own events, CHANNEL_OPEN,
CHANNEL_CLOSE and the frame grid. -/
theorem stepKeepsStockMarkAndCaptureBounds : Obligations.StepKeepsStockMarkAndCaptureBounds :=
  fun _ _ h => ⟨fun hs => step_keeps (P := State.stockOk) (fun _ _ hu => hu) (fun _ _ _ he hu => he.keeps_stockOk hu) hs h,
    fun hs => step_keeps (P := State.captureOk) (fun _ _ hu => hu) (fun _ _ _ he hu => he.keeps_captureOk hu) hs h⟩

end Sys2Proof.Machine

/-! ## The proof of O59: the playout windows (R21, R40, R67, R70) -/

namespace Sys2Proof.Machine

/-! ### Lists on the grid of a cursor (R40) -/

/-- A list of entries on the grid of a cursor, in slots 0 to 31, ascending. -/
def gridded (cursor : Word) (l : List Entry) : Prop :=
  (∀ e ∈ l, rawDistance e.ts cursor % 80 = 0 ∧ 0 ≤ rawDistance e.ts cursor ∧ rawDistance e.ts cursor ≤ 2480) ∧
  l.Pairwise fun a b => rawDistance a.ts cursor < rawDistance b.ts cursor

@[simp] theorem rawDistance_self (t : Word) : rawDistance t t = 0 := by simp [rawDistance]

theorem rawDistance_eq_zero_iff (t cursor : Word) : rawDistance t cursor = 0 ↔ t = cursor := by
  refine ⟨fun h => ?_, fun h => h ▸ rawDistance_self t⟩
  have hz : t - cursor = 0 := BitVec.eq_of_toInt_eq h
  rw [← BitVec.sub_add_cancel t cursor, hz]
  exact BitVec.zero_add cursor

theorem rawDistance_advance {t cursor : Word} (h : -2147483568 ≤ rawDistance t cursor) :
    rawDistance t (cursor + 80) = rawDistance t cursor - 80 := by
  have hword := toInt_mem_word (t - cursor)
  unfold rawDistance at h ⊢
  rw [show t - (cursor + 80) = (t - cursor) - 80 by ring]
  generalize t - cursor = x at h hword
  rw [BitVec.toInt_sub, show (80 : Word).toInt = 80 by decide, Int.bmod_eq_of_le_mul_two] <;> omega

theorem rawDistance_roundedTimestamp {cursor : Word} {d : Int} (h0 : 0 ≤ d) (h : d < 2560) :
    rawDistance (roundedTimestamp cursor d) cursor = d := by
  unfold rawDistance roundedTimestamp
  rw [BitVec.add_comm, BitVec.add_sub_cancel, BitVec.toInt_ofInt, Int.bmod_eq_of_le_mul_two] <;> omega

theorem gridded_nil (cursor : Word) : gridded cursor [] := ⟨nofun, .nil⟩

theorem gridded.sublist {cursor : Word} {l l' : List Entry} (h : gridded cursor l) (hs : l'.Sublist l) : gridded cursor l' :=
  ⟨fun e he => h.1 e (hs.mem he), h.2.sublist hs⟩

/-- With no entry at the cursor, the cursor moves a slot on. -/
theorem gridded.advance {cursor : Word} {l : List Entry} (h : gridded cursor l) (hno : ∀ e ∈ l, e.ts ≠ cursor) :
    gridded (cursor + 80) l := by
  obtain ⟨hgrid, hasc⟩ := h
  have hmove : ∀ e ∈ l, rawDistance e.ts (cursor + 80) = rawDistance e.ts cursor - 80 := fun e he =>
    rawDistance_advance (by have := (hgrid e he).2.1; omega)
  refine ⟨fun e he => ?_, hasc.imp_of_mem fun ha hb hlt => ?_⟩
  · obtain ⟨hmod, hlow, hhigh⟩ := hgrid e he
    have hpos : rawDistance e.ts cursor ≠ 0 := fun hz => hno e he ((rawDistance_eq_zero_iff _ _).mp hz)
    rw [hmove e he]
    omega
  · rw [hmove _ ha, hmove _ hb]
    omega

/-- An ascending list has one entry at the cursor at most. -/
theorem gridded.erase_cursor {cursor : Word} {l : List Entry} (h : gridded cursor l) :
    ∀ e ∈ l.eraseP (·.ts == cursor), e.ts ≠ cursor := by
  induction l with
  | nil => exact nofun
  | cons x xs ih =>
    obtain ⟨hhead, htail⟩ := List.pairwise_cons.mp h.2
    by_cases hx : x.ts = cursor
    · rw [List.eraseP_cons_of_pos (by simpa using hx)]
      intro e he heq
      have hlt := hhead e he
      rw [hx, heq, rawDistance_self] at hlt
      exact absurd hlt (lt_irrefl 0)
    · rw [List.eraseP_cons_of_neg (by simpa using hx)]
      intro e he
      rcases List.mem_cons.mp he with rfl | he
      · exact hx
      · exact ih ⟨fun e he => h.1 e (List.mem_cons_of_mem x he), htail⟩ e he

theorem gridded.insert {cursor : Word} {l : List Entry} (h : gridded cursor l) {e : Entry} {d : Int} (hd : 80 ∣ d) (h0 : 0 ≤ d)
    (hlt : d < 2560) (he : e.ts = roundedTimestamp cursor d) (hno : ∀ x ∈ l, x.ts ≠ e.ts) : gridded cursor (insertEntry cursor e l) := by
  have hraw : rawDistance e.ts cursor = d := he ▸ rawDistance_roundedTimestamp h0 hlt
  refine ⟨fun x hx => ?_, insertEntry_ascending h.2 fun x hx hsame => ?_⟩
  · rcases mem_insertEntry.mp hx with rfl | hx
    · rw [hraw]
      omega
    · exact h.1 x hx
  · have hts : x.ts - cursor = e.ts - cursor := BitVec.eq_of_toInt_eq hsame
    exact hno x hx (by rw [← BitVec.sub_add_cancel x.ts cursor, hts, BitVec.sub_add_cancel])

theorem gridded.length_le {cursor : Word} {l : List Entry} (h : gridded cursor l) : l.length ≤ 32 := by
  have hnodup : (l.map fun e => rawDistance e.ts cursor / 80).Nodup := by
    refine List.pairwise_map.mpr (h.2.imp_of_mem fun {a b} ha hb hlt => ?_)
    have hmoda := (h.1 a ha).1
    have hmodb := (h.1 b hb).1
    omega
  have hsub : (l.map fun e => rawDistance e.ts cursor / 80).toFinset ⊆ Finset.Icc 0 31 := by
    intro k hk
    obtain ⟨e, he, rfl⟩ := List.mem_map.mp (List.mem_toFinset.mp hk)
    obtain ⟨hmod, hlow, hhigh⟩ := h.1 e he
    rw [Finset.mem_Icc]
    omega
  have hcard := Finset.card_le_card hsub
  rwa [List.toFinset_card_of_nodup hnodup, List.length_map] at hcard

theorem classOf_placeable {d : Int} (h : classOf d = .placeable) : 0 ≤ d ∧ d < 2560 := by
  unfold classOf at h
  split at h
  · cases h
  · split at h
    · omega
    · cases h

/-! ### Channel records -/

/-- What the modes promise: no steady frames and no hold in SPEECH, steady frames but no excess run and no trim in STEADY (R67, R70). -/
def Channel.modeOk (c : Channel) : Prop :=
  (c.mode = .speech → c.steady = none ∧ c.hold = 0) ∧ (c.mode = .steady → c.steady ≠ none ∧ c.excess = 0 ∧ c.trim = false)

theorem Channel.windowOk_iff (c : Channel) : c.windowOk ↔ gridded c.cursor c.list ∧ (c.state ≠ .flowing → c.list = []) ∧ c.modeOk := by
  unfold Channel.windowOk gridded Channel.modeOk
  tauto

theorem Channel.modeOk_depthControl {c : Channel} (h : c.modeOk) : c.depthControl.modeOk := by
  refine ⟨fun hm => ?_, fun hm => ?_⟩
  · rw [Channel.depthControl_mode] at hm
    rw [Channel.depthControl_steady, Channel.depthControl_hold]
    exact h.1 hm
  · rw [Channel.depthControl_mode] at hm
    rw [Channel.depthControl_of_steady c hm]
    exact h.2 hm

/-- Settling keeps a window with no entry left at the cursor (R66, R67). -/
theorem Channel.windowOk_settle {c : Channel} (h : c.windowOk) (hno : ∀ e ∈ c.list, e.ts ≠ c.cursor) : c.settle.windowOk := by
  obtain ⟨hgrid, hstate, hmode⟩ := c.windowOk_iff.mp h
  refine c.settle.windowOk_iff.mpr ⟨?_, fun hs => ?_, ?_⟩
  · rw [Channel.settle_cursor, Channel.settle_list]
    exact hgrid.advance hno
  · rw [Channel.settle_state] at hs
    rw [Channel.settle_list]
    split at hs
    · next he => exact List.isEmpty_iff.mp he
    · exact hstate hs
  · rw [Channel.settle_eq]
    exact Channel.modeOk_depthControl hmode

/-- The entry at the cursor taken off the list (R62, R63). -/
theorem Channel.windowOk_erase {c : Channel} (h : c.windowOk) : ({ c with list := c.list.eraseP (·.ts == c.cursor) } : Channel).windowOk := by
  obtain ⟨hgrid, hstate, hmode⟩ := c.windowOk_iff.mp h
  exact (Channel.windowOk_iff _).mpr ⟨hgrid.sublist List.eraseP_sublist,
    fun hs => by show c.list.eraseP _ = []; rw [hstate hs, List.eraseP_nil], hmode⟩

/-- A list with no entry at the cursor moves a slot on with no trim pending (R62). -/
theorem Channel.windowOk_trimmed {c : Channel} (h : c.windowOk) (hno : ∀ e ∈ c.list, e.ts ≠ c.cursor) :
    ({ c with cursor := c.cursor + 80, trim := false } : Channel).windowOk := by
  obtain ⟨hgrid, hstate, hspeech, hsteady⟩ := c.windowOk_iff.mp h
  exact (Channel.windowOk_iff _).mpr ⟨hgrid.advance hno, hstate, hspeech, fun hm => ⟨(hsteady hm).1, (hsteady hm).2.1, rfl⟩⟩

theorem find?_cursor_none {c : Channel} (h : c.list.find? (·.ts == c.cursor) = none) : ∀ e ∈ c.list, e.ts ≠ c.cursor :=
  fun e he => by simpa using List.find?_eq_none.mp h e he

/-! ### Arrival (R30 to R38) -/

/-- A channel whose list is gridded and whose modes are in order, whatever its state. -/
def Channel.fillable (c : Channel) : Prop := gridded c.cursor c.list ∧ c.modeOk

theorem Channel.alignment_fields (c : Channel) (hd : ParcelHeader) :
    (c.alignment hd).2 = { c with lateRun := (c.alignment hd).2.lateRun, earlyRun := (c.alignment hd).2.earlyRun } := by
  unfold Channel.alignment
  split
  · rfl
  · split
    · rfl
    · rfl

theorem Channel.jitterStepFor_fields (c : Channel) (kind : ParcelKind) (t : Word) :
    c.jitterStepFor kind t = { c with
      j16 := (c.jitterStepFor kind t).j16
      target := (c.jitterStepFor kind t).target
      prevTransit := (c.jitterStepFor kind t).prevTransit } := by
  unfold Channel.jitterStepFor
  split <;> rfl

/-- The entry that a placeable block makes (R35, R50). -/
def Channel.entryOf (c : Channel) (n : CellNo) (coding : Coding) (b : Block) : Entry :=
  { ts := roundedTimestamp c.cursor (roundedDistance (rawDistance b.ts c.cursor)), cell := n, block := b.index, coding := coding
    origin := b.origin }

/-- What a block can do: counters aside, nothing, or one entry of a new timestamp put in its place (R35, R36). -/
inductive Channel.Placed (n : CellNo) (coding : Coding) (b : Block) (acc : Channel × Nat) : Channel × Nat → Prop
  | passed (cs : List Half) (r : BitVec 12) : Channel.Placed n coding b acc ({ acc.1 with counters := cs, rollover := r }, acc.2)
  | made (cs : List Half) (r : BitVec 12) (hclass : acc.1.classify b = .placeable)
      (hnew : ∀ x ∈ acc.1.list, x.ts ≠ (acc.1.entryOf n coding b).ts) :
      Channel.Placed n coding b acc
        ({ acc.1 with list := insertEntry acc.1.cursor (acc.1.entryOf n coding b) acc.1.list, counters := cs, rollover := r }, acc.2 + 1)

theorem Channel.placeBlock_placed (n : CellNo) (coding : Coding) (acc : Channel × Nat) (b : Block) :
    Channel.Placed n coding b acc (Channel.placeBlock n coding acc b) := by
  obtain ⟨c, made⟩ := acc
  have hrealigned : ∃ cs r, (if gridRemainder (rawDistance b.ts c.cursor) = 0 then c else c.bump .realignedBlocks) =
      { c with counters := cs, rollover := r } := by
    split
    · exact ⟨_, _, rfl⟩
    · exact ⟨_, _, rfl⟩
  obtain ⟨cs, r, hr⟩ := hrealigned
  unfold Channel.placeBlock
  dsimp only
  rw [hr]
  split
  · exact .passed _ _
  · exact .passed _ _
  · next hclass =>
    split
    · exact .passed _ _
    · next hnew =>
      have hnew' : ∀ x ∈ c.list, x.ts ≠ (c.entryOf n coding b).ts := fun x hx => by
        simpa [Channel.entryOf] using fun h => hnew (List.any_eq_true.mpr ⟨x, hx, h⟩)
      split
      · exact .made _ _ hclass hnew'
      · exact .made _ _ hclass hnew'

theorem Channel.foldl_placeBlock_keeps {P : Channel × Nat → Prop} {n : CellNo} {coding : Coding}
    (h : ∀ b acc acc', Channel.Placed n coding b acc acc' → P acc → P acc') (bs : List Block) :
    ∀ acc, P acc → P (bs.foldl (Channel.placeBlock n coding) acc) := by
  induction bs with
  | nil => exact fun acc ha => ha
  | cons b bs ih => exact fun acc ha => ih _ (h b acc _ (Channel.placeBlock_placed n coding acc b) ha)

theorem Channel.fillable_of_placed {n : CellNo} {coding : Coding} {b : Block} {acc acc' : Channel × Nat}
    (hp : Channel.Placed n coding b acc acc') (h : acc.1.fillable) : acc'.1.fillable := by
  obtain ⟨hgrid, hmode⟩ := h
  cases hp with
  | passed cs r => exact ⟨hgrid, hmode⟩
  | made cs r hclass hnew =>
    obtain ⟨h0, hlt⟩ := classOf_placeable hclass
    exact ⟨hgrid.insert (roundedDistance_dvd _) h0 hlt rfl hnew, hmode⟩

/-- The blocks of a parcel leave the state, and with no entry made the list; the modes and the grid stay in order. -/
theorem Channel.foldl_placeBlock_fields (c : Channel) (n : CellNo) (coding : Coding) (bs : List Block) (h : c.fillable) :
    let r := bs.foldl (Channel.placeBlock n coding) (c, 0)
    r.1.fillable ∧ r.1.state = c.state ∧ (r.2 = 0 → r.1.list = c.list) := by
  refine Channel.foldl_placeBlock_keeps (P := fun r => r.1.fillable ∧ r.1.state = c.state ∧ (r.2 = 0 → r.1.list = c.list))
    (fun b acc acc' hp hacc => ?_) bs (c, 0) ⟨h, rfl, fun _ => rfl⟩
  obtain ⟨hfill, hstate, hlist⟩ := hacc
  refine ⟨Channel.fillable_of_placed hp hfill, ?_⟩
  cases hp with
  | passed cs r => exact ⟨hstate, hlist⟩
  | made cs r hclass hnew => exact ⟨hstate, nofun⟩

theorem Channel.windowOk_placeBlocks {c : Channel} (h : c.windowOk) (hplay : c.state = .flowing ∨ c.state = .gap) (n : CellNo)
    (coding : Coding) (bs : List Block) : (c.placeBlocks n coding bs).1.windowOk := by
  obtain ⟨hgrid, hstate, hmode⟩ := c.windowOk_iff.mp h
  obtain ⟨⟨hgrid', hmode'⟩, hstate', hlist'⟩ := c.foldl_placeBlock_fields n coding bs ⟨hgrid, hmode⟩
  unfold Channel.placeBlocks
  dsimp only
  refine (Channel.windowOk_iff _).mpr ?_
  split
  · exact ⟨hgrid', fun hs => absurd rfl hs, hmode'⟩
  · next hno =>
    refine ⟨hgrid', fun hs => ?_, hmode'⟩
    rw [hstate'] at hs hno
    have hgap : c.state = .gap := hplay.resolve_left hs
    rw [hlist' (by by_contra hz; exact hno ⟨Nat.pos_of_ne_zero hz, hgap⟩), hstate hs]

/-- The cursor move of a parcel's kind, as it is for the channel (R30 step 3). -/
def Channel.moved (c : Channel) (ts : Word) : ParcelKind → Channel
  | .anchoring => { c.realign ts with state := .flowing }
  | .reanchoring => c.realign ts
  | .ordinary => c
  | .resync _ => ({ ({ c with list := [] } : Channel).realign ts with state := .flowing, lateRun := 0, earlyRun := 0 }).bump .resyncs

@[simp] theorem State.flushed_chan (s : State) (ch : LineNo) : (s.flushed ch).chan = s.chan.set ch { s.chan.get ch with list := [] } := by
  simp [State.flushed]

theorem State.moveCursor_chan (s : State) (ch : LineNo) (kind : ParcelKind) (ts : Word) :
    (s.moveCursor ch kind ts).chan = s.chan.set ch ((s.chan.get ch).moved ts kind) := by
  cases kind with
  | anchoring => rfl
  | reanchoring => rfl
  | ordinary => exact (Four.set_get s.chan ch).symm
  | resync early =>
    rw [State.moveCursor, State.resync_eq]
    simp [State.giveLineMark, Channel.moved]

/-- The channel that the arrival of a parcel leaves, and how many entries its blocks made (R30). -/
def Channel.arrived (c : Channel) (n : CellNo) (coding : Coding) (hd : ParcelHeader) (sc : Word) : Channel × Nat :=
  (((c.alignment hd).2.jitterStepFor (c.alignment hd).1 (transit sc hd.ts)).moved hd.ts (c.alignment hd).1).placeBlocks n coding hd.blocks

theorem State.arrive_chan (s : State) (ch : LineNo) (n : CellNo) (coding : Coding) (hd : ParcelHeader) :
    (s.arrive ch n coding hd).chan = s.chan.set ch ((s.chan.get ch).arrived n coding hd s.now).1 := by
  unfold State.arrive
  dsimp only
  rw [State.placeParcel_chan, State.moveCursor_chan]
  simp [Channel.arrived]

/-- A parcel that meets a WAITING channel anchors it; one that re-anchors meets a GAP channel in SPEECH; any other is ordinary or a resync
parcel (R30 to R33, R38). -/
theorem Channel.alignment_kind (c : Channel) (hd : ParcelHeader) :
    (c.state = .waiting ∧ (c.alignment hd).1 = .anchoring) ∨
    (c.state = .gap ∧ c.mode = .speech ∧ (c.alignment hd).1 = .reanchoring) ∨
    (c.state ≠ .waiting ∧ ((c.alignment hd).1 = .ordinary ∨ ∃ early, (c.alignment hd).1 = .resync early)) := by
  unfold Channel.alignment
  split
  · next hw => exact .inl ⟨hw, rfl⟩
  · next hw =>
    split
    · next hg => exact .inr (.inl ⟨hg.1, hg.2.1, rfl⟩)
    · refine .inr (.inr ⟨hw, ?_⟩)
      dsimp only
      split
      · exact .inr ⟨false, rfl⟩
      · split
        · exact .inr ⟨true, rfl⟩
        · exact .inl rfl

/-- An empty list at a new cursor, with no hold, no excess run and no trim. -/
theorem Channel.windowOk_realign {c : Channel} (h : c.windowOk) (hl : c.list = []) (ts : Word) : (c.realign ts).windowOk := by
  obtain ⟨-, -, hspeech, hsteady⟩ := c.windowOk_iff.mp h
  refine (Channel.windowOk_iff _).mpr ⟨?_, fun _ => hl, fun hm => ⟨(hspeech hm).1, rfl⟩, fun hm => ⟨(hsteady hm).1, rfl, rfl⟩⟩
  rw [show (c.realign ts).list = [] from hl]
  exact gridded_nil _

theorem Channel.windowOk_flowing {c : Channel} (h : c.windowOk) : ({ c with state := .flowing } : Channel).windowOk := by
  obtain ⟨hgrid, -, hmode⟩ := c.windowOk_iff.mp h
  exact (Channel.windowOk_iff _).mpr ⟨hgrid, fun hs => absurd rfl hs, hmode⟩

theorem Channel.windowOk_emptied {c : Channel} (h : c.windowOk) : ({ c with list := [] } : Channel).windowOk := by
  obtain ⟨-, -, hmode⟩ := c.windowOk_iff.mp h
  exact (Channel.windowOk_iff _).mpr ⟨gridded_nil _, fun _ => rfl, hmode⟩

/-- The cursor move of a parcel's kind keeps the window, where an empty list is known when the kind asks for one, and leaves a channel that
plays. -/
theorem Channel.windowOk_moved {c : Channel} (h : c.windowOk) (ts : Word) (kind : ParcelKind)
    (hk : (c.state = .waiting ∧ kind = .anchoring) ∨ (c.state = .gap ∧ kind = .reanchoring) ∨
      ((c.state = .flowing ∨ c.state = .gap) ∧ (kind = .ordinary ∨ ∃ early, kind = .resync early))) :
    (c.moved ts kind).windowOk ∧ ((c.moved ts kind).state = .flowing ∨ (c.moved ts kind).state = .gap) := by
  obtain ⟨hgrid, hstate, hmode⟩ := c.windowOk_iff.mp h
  rcases hk with ⟨hs, rfl⟩ | ⟨hs, rfl⟩ | ⟨hs, rfl | ⟨early, rfl⟩⟩
  · exact ⟨Channel.windowOk_flowing (Channel.windowOk_realign h (hstate (by simp [hs])) ts), .inl rfl⟩
  · exact ⟨Channel.windowOk_realign h (hstate (by simp [hs])) ts, .inr hs⟩
  · exact ⟨h, hs⟩
  · refine ⟨?_, .inl rfl⟩
    exact Channel.windowOk_flowing (c := { ({ c with list := [] } : Channel).realign ts with lateRun := 0, earlyRun := 0 })
      (Channel.windowOk_realign (Channel.windowOk_emptied h) rfl ts)

theorem Channel.windowOk_arrived {c : Channel} (h : c.windowOk) (ho : c.state ≠ .closed) (n : CellNo) (coding : Coding)
    (hd : ParcelHeader) (sc : Word) : (c.arrived n coding hd sc).1.windowOk := by
  have hbefore : ((c.alignment hd).2.jitterStepFor (c.alignment hd).1 (transit sc hd.ts)).windowOk := by
    rw [Channel.jitterStepFor_fields, Channel.alignment_fields]
    exact h
  have hstate : ((c.alignment hd).2.jitterStepFor (c.alignment hd).1 (transit sc hd.ts)).state = c.state := by
    rw [Channel.jitterStepFor_fields, Channel.alignment_fields]
  have hplay : c.state ≠ .waiting → c.state = .flowing ∨ c.state = .gap := by
    intro hw
    cases hc : c.state with
    | closed => exact absurd hc ho
    | waiting => exact absurd hc hw
    | flowing => exact .inl rfl
    | gap => exact .inr rfl
  obtain ⟨hmoved, hplaying⟩ := Channel.windowOk_moved hbefore hd.ts (c.alignment hd).1 (by
    rw [hstate]
    rcases c.alignment_kind hd with ⟨hs, hk⟩ | ⟨hs, -, hk⟩ | ⟨hs, hk⟩
    · exact .inl ⟨hs, hk⟩
    · exact .inr (.inl ⟨hs, hk⟩)
    · exact .inr (.inr ⟨hplay hs, hk⟩))
  exact Channel.windowOk_placeBlocks hmoved hplaying n coding hd.blocks

/-! ### Every event and order keeps the windows -/

theorem State.closeChannel_chan (s : State) (ch : LineNo) : (s.closeChannel ch).chan =
    s.chan.set ch { s.chan.get ch with state := .closed, list := [], hold := 0, excess := 0, trim := false } := by
  rw [State.closeChannel_eq, State.setChan_chan, State.closeCapture_chan, State.flushed_chan, Four.set_set, Four.get_set_same]

/-! ### Of the channels, a capture event changes counters alone (R42) -/

/-- Of the channels, the counters of one alone have changed. -/
def State.CountersOf (s : State) (ch : LineNo) (t : State) : Prop :=
  ∃ cs r, t.chan = s.chan.set ch { s.chan.get ch with counters := cs, rollover := r }

theorem State.CountersOf.of_eq {s t : State} {ch : LineNo} (h : t.chan = s.chan) : s.CountersOf ch t :=
  ⟨(s.chan.get ch).counters, (s.chan.get ch).rollover, h.trans (Four.set_get s.chan ch).symm⟩

theorem State.CountersOf.trans {s t u : State} {ch : LineNo} (h : s.CountersOf ch t) (g : t.CountersOf ch u) : s.CountersOf ch u := by
  obtain ⟨cs, r, h⟩ := h
  obtain ⟨cs', r', g⟩ := g
  exact ⟨cs', r', by rw [g, h, Four.set_set, Four.get_set_same]⟩

theorem State.countersOf_bump (s : State) (ch : LineNo) (k : Counter) : s.CountersOf ch (s.bump ch k) := ⟨_, _, rfl⟩

theorem State.countersOf_starvePeriod (s : State) (ch : LineNo) : s.CountersOf ch (s.starvePeriod ch) := by
  unfold State.starvePeriod
  dsimp only
  split
  · exact State.countersOf_bump (s.setCap ch _) ch _
  · exact .trans (State.countersOf_bump (s.setCap ch _) ch _) (.of_eq (State.giveMark_chan _ _))

theorem State.countersOf_startPeriod (s : State) (ch : LineNo) (mode : Mode) : s.CountersOf ch (s.startPeriod ch mode) := by
  rcases s.claim_or_starve with hstarve | ⟨n, rest, hs, hr⟩
  · rw [State.startPeriod_starved mode hstarve]
    exact State.countersOf_starvePeriod (s.setCap ch _) ch
  · rw [State.startPeriod_claimed mode hs hr, State.putRedundant_eq]
    exact .of_eq rfl

theorem State.countersOf_joinPeriod (s : State) (ch : LineNo) (f : Frame) : s.CountersOf ch (s.joinPeriod ch f) := by
  have hcoded : (s.codeFrame ch f).chan = s.chan := by
    unfold State.codeFrame
    split <;> rfl
  rw [State.joinPeriod_eq]
  split
  · refine .trans (.of_eq (t := (s.codeFrame ch f).setCap ch { s.cap.get ch with frames := (s.cap.get ch).frames + 1 }) hcoded) ?_
    rw [State.endPeriod_eq]
    unfold State.sendHeld
    split
    · exact ⟨_, _, rfl⟩
    · exact .of_eq rfl
  · exact .of_eq hcoded

theorem State.countersOf_captureStep (s : State) (ch : LineNo) : s.CountersOf ch (s.captureStep ch) := by
  have hperiod : ∀ (u : State) (mode : Mode) (active : Bool) (f : Frame), u.CountersOf ch (u.periodStep ch mode active f) := by
    intro u mode active f
    unfold State.periodStep
    split
    · exact .of_eq rfl
    · exact u.countersOf_joinPeriod ch f
    · exact (u.countersOf_startPeriod ch mode).trans (State.countersOf_joinPeriod _ ch f)
    · split
      · exact .of_eq rfl
      · exact (u.countersOf_startPeriod ch mode).trans (State.countersOf_joinPeriod _ ch f)
  exact hperiod (s.setCap ch _) _ _ _

section Windows

variable {s : State}

theorem State.windowsOk_replace {t : State} (h : s.windowsOk) {ch : LineNo} {c : Channel} (ht : t.chan = s.chan.set ch c)
    (hc : c.windowOk) : t.windowsOk := by
  intro m
  rw [ht, Four.get_set]
  split
  · exact hc
  · exact h m

theorem State.windowsOk_setChan (h : s.windowsOk) (ch : LineNo) {c : Channel} (hc : c.windowOk) : (s.setChan ch c).windowsOk :=
  State.windowsOk_replace h rfl hc

theorem State.windowsOk_congr {t : State} (h : s.windowsOk) (ht : t.chan = s.chan) : t.windowsOk := by
  intro ch
  rw [ht]
  exact h ch

theorem State.windowsOk_handFrames (ch : LineNo) (out : Frame) (far : Option Frame) (h : s.windowsOk) :
    (s.handFrames ch out far).windowsOk := State.windowsOk_congr h (by simp)

theorem State.windowsOk_trimStep (ch : LineNo) (h : s.windowsOk) : (s.trimStep ch).windowsOk := by
  cases hf : (s.chan.get ch).list.find? (·.ts == (s.chan.get ch).cursor) with
  | none =>
    rw [State.trimStep_of_no_entry (find?_cursor_none hf)]
    exact State.windowsOk_setChan h ch (Channel.windowOk_trimmed (h ch) (find?_cursor_none hf))
  | some e =>
    rw [State.trimStep_of_entry hf]
    exact State.windowsOk_setChan (State.windowsOk_congr h (by simp)) ch
      (Channel.windowOk_trimmed (Channel.windowOk_erase (h ch)) ((Channel.windowOk_iff _).mp (h ch)).1.erase_cursor)

theorem State.windowsOk_ordinaryBoundary (ch : LineNo) (h : s.windowsOk) : (s.ordinaryBoundary ch).windowsOk := by
  unfold State.ordinaryBoundary
  dsimp only
  split
  · refine State.windowsOk_handFrames ch _ _ (State.windowsOk_congr (State.windowsOk_setChan h ch ?_) (State.dropRef_chan _ _))
    exact Channel.windowOk_settle (c := Channel.bump { s.chan.get ch with
        list := (s.chan.get ch).list.eraseP (·.ts == (s.chan.get ch).cursor), last := _, conceal := 0 } .played)
      (Channel.windowOk_erase (h ch)) ((Channel.windowOk_iff _).mp (h ch)).1.erase_cursor
  · next hf =>
    split
    · exact State.windowsOk_handFrames ch _ _ (State.windowsOk_setChan h ch
        (Channel.windowOk_settle (c := Channel.bump { s.chan.get ch with conceal := _ } .concealed) (h ch) (find?_cursor_none hf)))
    · exact State.windowsOk_handFrames ch _ _ (State.windowsOk_setChan h ch
        (Channel.windowOk_settle (c := Channel.bump (s.chan.get ch) .filled) (h ch) (find?_cursor_none hf)))

theorem State.windowsOk_playBoundary (s : State) (ch : LineNo) (h : s.windowsOk) : (s.playBoundary ch).windowsOk := by
  unfold State.playBoundary
  dsimp only
  split
  · exact h
  · exact State.windowsOk_handFrames ch _ _ h
  · split
    · next hhold =>
      obtain ⟨hgrid, hstate, hspeech, hsteady⟩ := (Channel.windowOk_iff _).mp (h ch)
      refine State.windowsOk_handFrames ch _ _ (State.windowsOk_setChan h ch ((Channel.windowOk_iff _).mpr ⟨hgrid, hstate, fun hm => ?_, hsteady⟩))
      exact absurd (hspeech hm).2 hhold.ne'
    · split
      · exact State.windowsOk_ordinaryBoundary ch (State.windowsOk_trimStep ch h)
      · exact State.windowsOk_ordinaryBoundary ch h

theorem State.windowsOk_enterSteady (ch : LineNo) (explicit : Option Nat) (cause : Half) (h : s.windowsOk) :
    (s.enterSteady ch explicit cause).1.windowsOk := by
  obtain ⟨hgrid, hstate, -⟩ := (Channel.windowOk_iff _).mp (h ch)
  refine State.windowsOk_congr (State.windowsOk_setChan h ch (c := { s.chan.get ch with
    steady := some (steadyFramesOf (s.chan.get ch).target (s.chan.get ch).params.steadyMargin explicit).1
    hold := (s.chan.get ch).hold + if (s.chan.get ch).anchored then
      (steadyFramesOf (s.chan.get ch).target (s.chan.get ch).params.steadyMargin explicit).1 - (s.chan.get ch).target else 0
    mode := .steady, excess := 0, trim := false }) ?_) (State.giveMark_chan _ _)
  exact (Channel.windowOk_iff _).mpr ⟨hgrid, hstate, fun hm => by simp at hm, fun _ => ⟨Option.some_ne_none _, rfl, rfl⟩⟩

theorem State.windowsOk_reapplySteady (ch : LineNo) (explicit : Option Nat) (hm : (s.chan.get ch).mode = .steady) (h : s.windowsOk) :
    (s.reapplySteady ch explicit).1.windowsOk := by
  obtain ⟨hgrid, hstate, -, hsteady⟩ := (Channel.windowOk_iff _).mp (h ch)
  unfold State.reapplySteady
  dsimp only
  split
  · refine State.windowsOk_setChan h ch ((Channel.windowOk_iff _).mpr ⟨hgrid, hstate, fun hm' => ?_, fun _ => ?_⟩)
    · rw [hm] at hm'
      cases hm'
    · exact ⟨Option.some_ne_none _, (hsteady hm).2⟩
  · split
    · exact h
    · exact h

theorem State.windowsOk_returnToSpeech (ch : LineNo) (h : s.windowsOk) : (s.returnToSpeech ch).windowsOk := by
  obtain ⟨hgrid, hstate, -⟩ := (Channel.windowOk_iff _).mp (h ch)
  unfold State.returnToSpeech
  dsimp only
  refine State.windowsOk_setChan (State.windowsOk_congr h (State.giveMark_chan _ _)) ch ?_
  rw [State.giveLineMark, State.giveMark_chan]
  exact (Channel.windowOk_iff _).mpr ⟨hgrid, hstate, fun _ => ⟨rfl, rfl⟩, fun hm => by simp at hm⟩

theorem State.windowsOk_triggerEvent (ch : LineNo) (cause : TriggerCause) (h : s.windowsOk) : (s.triggerEvent ch cause).windowsOk := by
  unfold State.triggerEvent State.takeTrigger
  dsimp only
  split
  · split
    · exact State.windowsOk_enterSteady ch none _ h
    · exact h
  · exact h

theorem State.windowsOk_captureStep (ch : LineNo) (h : s.windowsOk) : (s.captureStep ch).windowsOk := by
  obtain ⟨cs, r, hc⟩ := s.countersOf_captureStep ch
  exact State.windowsOk_replace h hc (h ch)

theorem windowOk_opened (p : OpenParams) : (Channel.opened p).windowOk :=
  (Channel.windowOk_iff _).mpr ⟨gridded_nil _, fun _ => rfl, fun _ => ⟨rfl, rfl⟩, fun hm => by simp [Channel.opened, Channel.reset] at hm⟩

theorem Channel.windowOk_closed {c : Channel} (h : c.windowOk) :
    ({ c with state := .closed, list := [], hold := 0, excess := 0, trim := false } : Channel).windowOk := by
  obtain ⟨-, -, hspeech, hsteady⟩ := c.windowOk_iff.mp h
  exact (Channel.windowOk_iff _).mpr ⟨gridded_nil _, fun _ => rfl, fun hm => ⟨(hspeech hm).1, rfl⟩, fun hm => ⟨(hsteady hm).1, rfl, rfl⟩⟩

theorem State.windowsOk_orderRun {t : State} {n : CellNo} {count : Nat} (ho : s.OrderRun n count t) (h : s.windowsOk) : t.windowsOk := by
  rcases ho.lineStep_or_channelRun with ho | ho
  · exact State.windowsOk_congr h ho.chan
  · cases ho with
    | channelOpen ch raw hc => exact State.windowsOk_replace h rfl (windowOk_opened raw.inRange)
    | channelClose ch hc =>
      exact State.windowsOk_replace h (s.closeChannel_chan ch) (Channel.windowOk_closed (h ch))
    | enterSteady ch explicit hc hm => exact State.windowsOk_enterSteady ch explicit _ h
    | reapplySteady ch explicit hc hm => exact State.windowsOk_reapplySteady ch explicit hm h
    | returnToSpeech ch hc hm => exact State.windowsOk_returnToSpeech ch h
    | snapshot ch off clear hlow hhigh =>
      cases clear with
      | true => exact State.windowsOk_setChan (s := s.putCell n off (s.chan.get ch).snapshot) h ch (h ch)
      | false => exact h
    | reserve v => exact h

/-- A valid parcel is one of an open channel (R29). -/
theorem State.validateParcel_ok {hd : ParcelHeader} {ch : LineNo} {coding : Coding} (h : s.validateParcel hd = .ok (ch, coding)) :
    (s.chan.get ch).state ≠ .closed := by
  unfold State.validateParcel at h
  split at h
  · cases h
  · split at h
    · cases h
    · next hopen =>
      split at h
      · cases h
      · split at h
        · cases h
        · split at h
          · cases h
          · obtain ⟨rfl, -⟩ := Prod.mk.inj (Except.ok.inj h)
            exact hopen

theorem State.windowsOk_takeCell (n : CellNo) (posted : Byte) (h : s.windowsOk) : (s.takeCell n posted).windowsOk := by
  have hsheet : ∀ u : State, u.windowsOk → (u.runSheet n).windowsOk := by
    intro u hu
    unfold State.runSheet
    dsimp only
    split
    · exact hu
    · exact State.runEntries_keeps (P := State.windowsOk) (fun v hv => State.windowsOk_congr hv v.sweepWork_chan)
        (fun _ _ ho hv => State.windowsOk_orderRun ho hv) (fun _ _ _ _ hv => hv) _ 0 u (by omega) hu
  have hspare : ∀ u : State, u.windowsOk → (u.joinSpare n).windowsOk := by
    intro u hu
    unfold State.joinSpare
    split
    · exact hu
    · exact hu
  have hparcel : ∀ u : State, u.windowsOk → (u.dispatchParcel n).windowsOk := by
    intro u hu
    unfold State.dispatchParcel
    dsimp only
    split
    · exact hu
    · next ch coding hv =>
      exact State.windowsOk_replace hu (u.arrive_chan ch n coding _) (Channel.windowOk_arrived (hu ch) (State.validateParcel_ok hv) _ _ _ _)
  have htaken : s.sweepWork.windowsOk := State.windowsOk_congr h s.sweepWork_chan
  unfold State.takeCell State.dispatch
  dsimp only
  split
  · exact hparcel _ htaken
  · split
    · exact hsheet _ htaken
    · exact hspare _ htaken

theorem State.windowsOk_clash (n : CellNo) (k : Kept) (posted : Byte) (h : s.windowsOk) : (s.clash n k posted).windowsOk := by
  unfold State.clash
  split
  · exact h
  · exact State.windowsOk_congr h ((State.giveMark_chan _ _).trans s.sweepWork_chan)

theorem State.windowsOk_partEvent (e : PartEvent) (h : s.windowsOk) : (s.partEvent e).windowsOk :=
  State.partEvent_keeps (P := State.windowsOk) (fun _ hl hs => State.windowsOk_congr hs hl.chan) (fun _ hs => hs)
    State.windowsOk_playBoundary (fun _ ch _ hu => State.windowsOk_captureStep ch hu)
    (fun ch cause hs => State.windowsOk_triggerEvent ch cause hs)
    (fun u hu => State.windowsOk_congr hu (by rw [State.markBoundary_eq]; rfl)) e h

end Windows

theorem windowsOk_reset : State.reset.windowsOk := by
  unfold State.windowsOk Channel.windowOk
  decide

theorem State.Effect.keeps_windowsOk {s t : State} {c : Instr} (h : s.Effect c t) (hs : s.windowsOk) : t.windowsOk := by
  cases h with
  | nothing => exact hs
  | event c e => exact State.windowsOk_partEvent e hs
  | passFree p hr => exact State.windowsOk_congr hs s.lineStep_passFree.chan
  | powerOn ram =>
    cases ram with
    | none => exact windowsOk_reset
    | some cells => exact windowsOk_reset
  | runctl c lanes data hc => exact s.writeRunctl_keeps lanes data windowsOk_reset (fun _ hu => hu) (fun _ hu => hu) hs
  | attnctl c lanes data => exact s.writeAttnctl_keeps lanes data fun _ => hs
  | tally c t after => exact State.windowsOk_congr hs (by rw [State.operateTally_eq])
  | hostWrite half lanes data => exact State.hostWrite_keeps _ lanes data hs (fun _ _ => hs) fun _ _ _ hu => hu
  | samplePeriod line hr => exact State.windowsOk_congr hs (s.lineSamples line).advanceClock_fields.2.2.2.1
  | sweep work between ht =>
    exact State.sweepStep_keeps (P := State.windowsOk) work between (fun _ _ hu => hu) (fun _ hu => hu)
      (fun _ e hu => State.windowsOk_partEvent e hu) (fun _ n k _ hu => State.windowsOk_clash n k _ hu)
      (fun _ n _ _ hu => State.windowsOk_takeCell n _ hu) (s.undue .sweep) hs

/-- Settles O59: lists change by entries placed on the grid, by the entry at the cursor leaving as the cursor moves a slot on, and by being
emptied; the rest of the promise goes with the modes. -/
theorem stepKeepsPlayoutWindows : Obligations.StepKeepsPlayoutWindows :=
  ⟨fun _ _ hs h => step_keeps (P := State.windowsOk) (fun _ _ hu => hu) (fun _ _ _ he hu => he.keeps_windowsOk hu) hs h,
    fun _ hs ch => ((Channel.windowOk_iff _).mp (hs ch)).1.length_le⟩

end Sys2Proof.Machine

/-! ## The proof of O58: the ports and the ring supply (R117, R127, R133, R138, R139) -/

namespace Sys2Proof.Machine

/-! ### One line, and the supply -/

/-- What the rules promise of one line's port, tone and ring contexts, the supply left aside. -/
def lineLocal (r : Port) (t : Tone) (g : Ring) : Prop :=
  (r.state ≠ .offhook → r.breakCount = none ∧ r.gapCount = none) ∧ (t.running = true → r.state = .offhook) ∧
  t.run.isSome = t.running ∧ (g.run.isSome = true ↔ r.state = .ringing) ∧ (g.sub ≠ .none ↔ r.state = .ringing)

/-- The sub-phases of the four ports. -/
def State.subs (s : State) : LineNo → SubPhase := fun p => (s.ring.get p).sub

/-- What the supply promises of the sub-phases: BURST is to hold one grant, WAIT_GRANT to wait once on the list, and nobody waits while a
grant is free (R138, R139). -/
structure Arbiter.Serves (a : Arbiter) (sub : LineNo → SubPhase) : Prop where
  burst : ∀ p, sub p = .burst ↔ a.grantA = some p ∨ a.grantB = some p
  wait : ∀ p, sub p = .waitGrant ↔ p ∈ a.waitList
  one : ∀ p, ¬ (a.grantA = some p ∧ a.grantB = some p)
  nodup : a.waitList.Nodup
  busy : a.waitList ≠ [] → a.grantA ≠ none ∧ a.grantB ≠ none

theorem State.linesOk_iff (s : State) :
    s.linesOk ↔ (∀ p, lineLocal (s.port.get p) (s.tone.get p) (s.ring.get p)) ∧ s.arb.Serves s.subs := by
  constructor
  · rintro ⟨hline, hnodup, hbusy⟩
    refine ⟨fun p => ?_, fun p => ?_, fun p => ?_, fun p => ?_, hnodup, hbusy⟩
    · obtain ⟨hcounts, htone, hrun, hring, hsub, -⟩ := hline p
      exact ⟨hcounts, htone, hrun, hring, hsub⟩
    · exact (hline p).2.2.2.2.2.1
    · exact (hline p).2.2.2.2.2.2.1
    · exact (hline p).2.2.2.2.2.2.2
  · rintro ⟨hlocal, hserves⟩
    refine ⟨fun p => ?_, hserves.nodup, hserves.busy⟩
    obtain ⟨hcounts, htone, hrun, hring, hsub⟩ := hlocal p
    exact ⟨hcounts, htone, hrun, hring, hsub, hserves.burst p, hserves.wait p, hserves.one p⟩

/-- A sub-phase that is none of the supply's. -/
def SubPhase.off (x : SubPhase) : Prop := x ≠ .burst ∧ x ≠ .waitGrant

/-- One of the two grants (A if `x`, else B) given another holder. -/
def Arbiter.grant (a : Arbiter) (x : Bool) (holder : Option LineNo) : Arbiter :=
  if x then { a with grantA := holder } else { a with grantB := holder }

/-- Who holds one of the two grants (A if `x`, else B). -/
def Arbiter.holder (a : Arbiter) (x : Bool) : Option LineNo := if x then a.grantA else a.grantB

theorem Arbiter.grant_waitList (a : Arbiter) (x : Bool) (holder : Option LineNo) (l : List LineNo) :
    ({ a with waitList := l } : Arbiter).grant x holder = { a.grant x holder with waitList := l } := by
  cases x <;> rfl

section Serves

variable {a : Arbiter} {sub sub' : LineNo → SubPhase} {p q : LineNo} {qs : List LineNo}

/-- A port out of the supply holds no grant and does not wait. -/
theorem Arbiter.Serves.off_iff (h : a.Serves sub) : (sub p).off ↔ a.grantA ≠ some p ∧ a.grantB ≠ some p ∧ p ∉ a.waitList := by
  unfold SubPhase.off
  rw [Ne, Ne, h.burst p, h.wait p]
  tauto

/-- Only a port's part in the supply matters. -/
theorem Arbiter.Serves.congr (h : a.Serves sub) (hp : ∀ q, sub' q = sub q ∨ ((sub q).off ∧ (sub' q).off)) : a.Serves sub' where
  burst := fun q => by
    rw [← h.burst q]
    rcases hp q with e | ⟨e, e'⟩
    · rw [e]
    · exact iff_of_false e'.1 e.1
  wait := fun q => by
    rw [← h.wait q]
    rcases hp q with e | ⟨e, e'⟩
    · rw [e]
    · exact iff_of_false e'.2 e.2
  one := h.one
  nodup := h.nodup
  busy := h.busy

/-- A grant released with nobody waiting. -/
theorem Arbiter.Serves.free (h : a.Serves sub) (x : Bool) (hp : a.holder x = some p) (hw : a.waitList = []) :
    (a.grant x none).Serves (Function.update sub p .rest) := by
  obtain ⟨hburst, hwait, hone, hnodup, hbusy⟩ := h
  constructor <;> grind [Function.update, Arbiter.holder, Arbiter.grant]

/-- A grant released while a port waits. -/
theorem Arbiter.Serves.pass (h : a.Serves sub) (x : Bool) (hp : a.holder x = some p) (hw : a.waitList = q :: qs) :
    ({ a.grant x (some q) with waitList := qs } : Arbiter).Serves (Function.update (Function.update sub q .burst) p .rest) := by
  obtain ⟨hburst, hwait, hone, hnodup, hbusy⟩ := h
  constructor <;> grind [Function.update, Arbiter.holder, Arbiter.grant]

/-- A port that waits leaves the list. -/
theorem Arbiter.Serves.leave (h : a.Serves sub) (hp : sub p = .waitGrant) :
    ({ a with waitList := a.waitList.filter (· != p) } : Arbiter).Serves (Function.update sub p .rest) := by
  obtain ⟨hburst, hwait, hone, hnodup, hbusy⟩ := h
  constructor <;> grind [Function.update]

/-- A port out of the supply takes a free grant. -/
theorem Arbiter.Serves.take (h : a.Serves (Function.update sub p .rest)) (x : Bool) (hx : a.holder x = none) :
    (a.grant x (some p)).Serves (Function.update sub p .burst) := by
  obtain ⟨hburst, hwait, hone, hnodup, hbusy⟩ := h
  constructor <;> grind [Function.update, Arbiter.holder, Arbiter.grant]

/-- A port out of the supply waits while both grants are held. -/
theorem Arbiter.Serves.join (h : a.Serves (Function.update sub p .rest)) (hA : a.grantA ≠ none) (hB : a.grantB ≠ none) (f : LineNo → Word)
    (w : Word) :
    ({ a with waitList := joinWait f w p a.waitList } : Arbiter).Serves (Function.update sub p .waitGrant) := by
  obtain ⟨hburst, hwait, hone, hnodup, hbusy⟩ := h
  have hnp : p ∉ a.waitList := by grind [Function.update]
  have := nodup_joinWait f w hnodup hnp
  constructor <;> grind [Function.update, mem_joinWait]

end Serves

/-- All lines but one in order, that one out of the supply. -/
def State.linesOkBut (s : State) (p : LineNo) : Prop :=
  (∀ q, q ≠ p → lineLocal (s.port.get q) (s.tone.get q) (s.ring.get q)) ∧ s.arb.Serves (Function.update s.subs p .rest)

/-- A port that rings but for its sub-phase. -/
def State.ready (s : State) (p : LineNo) : Prop := lineLocal (s.port.get p) (s.tone.get p) { s.ring.get p with sub := .rest }

section Lines

variable {s t : State} {p : LineNo}

/-- What matters of a line is its port's state and counts, its tone, and its ring run and sub-phase. -/
theorem lineLocal_congr {r r' : Port} {t t' : Tone} {g g' : Ring} (h : lineLocal r t g) (hs : r'.state = r.state)
    (hb : r'.breakCount = r.breakCount) (hg : r'.gapCount = r.gapCount) (ht : t'.running = t.running) (hr : t'.run.isSome = t.run.isSome)
    (hrun : g'.run.isSome = g.run.isSome) (hsub : g'.sub = g.sub) : lineLocal r' t' g' := by
  unfold lineLocal
  rwa [hs, hb, hg, ht, hr, hrun, hsub]

theorem State.linesOk_congr (h : s.linesOk)
    (hline : ∀ p, (t.port.get p).state = (s.port.get p).state ∧ (t.port.get p).breakCount = (s.port.get p).breakCount ∧
      (t.port.get p).gapCount = (s.port.get p).gapCount ∧ (t.tone.get p).running = (s.tone.get p).running ∧
      (t.tone.get p).run.isSome = (s.tone.get p).run.isSome ∧ (t.ring.get p).run.isSome = (s.ring.get p).run.isSome ∧
      (t.ring.get p).sub = (s.ring.get p).sub) (harb : t.arb = s.arb) : t.linesOk := by
  obtain ⟨hlocal, hserves⟩ := s.linesOk_iff.mp h
  refine t.linesOk_iff.mpr ⟨fun p => ?_, ?_⟩
  · obtain ⟨hs, hb, hg, ht, hr, hrun, hsub⟩ := hline p
    exact lineLocal_congr (hlocal p) hs hb hg ht hr hrun hsub
  · rw [harb]
    exact hserves.congr fun q => .inl (hline q).2.2.2.2.2.2

theorem State.linesOk_of_fields (h : s.linesOk) (hport : t.port = s.port) (htone : t.tone = s.tone) (hring : t.ring = s.ring)
    (harb : t.arb = s.arb) : t.linesOk := by
  refine State.linesOk_congr h (fun p => ?_) harb
  rw [hport, htone, hring]
  exact ⟨rfl, rfl, rfl, rfl, rfl, rfl, rfl⟩

theorem State.linesOk.local (h : s.linesOk) (p : LineNo) : lineLocal (s.port.get p) (s.tone.get p) (s.ring.get p) :=
  (s.linesOk_iff.mp h).1 p

/-- A line replaced that is out of the supply before and after. -/
theorem State.linesOkBut.close (h : s.linesOkBut p) (hl : lineLocal (s.port.get p) (s.tone.get p) (s.ring.get p))
    (hoff : (s.ring.get p).sub.off) : s.linesOk := by
  obtain ⟨hothers, hserves⟩ := h
  refine s.linesOk_iff.mpr ⟨fun q => ?_, hserves.congr fun q => ?_⟩
  · by_cases e : q = p
    · rwa [e]
    · exact hothers q e
  · by_cases e : q = p
    · subst e
      exact .inr ⟨by rw [Function.update_self]; exact ⟨nofun, nofun⟩, hoff⟩
    · exact .inl (by rw [Function.update_of_ne e])

theorem State.linesOk.open (h : s.linesOk) (hoff : (s.ring.get p).sub.off) : s.linesOkBut p := by
  obtain ⟨hlocal, hserves⟩ := s.linesOk_iff.mp h
  refine ⟨fun q _ => hlocal q, hserves.congr fun q => ?_⟩
  by_cases e : q = p
  · subst e
    exact .inr ⟨hoff, by rw [Function.update_self]; exact ⟨nofun, nofun⟩⟩
  · exact .inl (by rw [Function.update_of_ne e])

/-- Of the other lines, the records alone matter. -/
theorem State.linesOkBut.congr (h : s.linesOkBut p) (hport : ∀ q, q ≠ p → t.port.get q = s.port.get q)
    (htone : ∀ q, q ≠ p → t.tone.get q = s.tone.get q) (hring : ∀ q, q ≠ p → t.ring.get q = s.ring.get q)
    (harb : t.arb = s.arb) : t.linesOkBut p := by
  obtain ⟨hothers, hserves⟩ := h
  refine ⟨fun q hq => ?_, ?_⟩
  · rw [hport q hq, htone q hq, hring q hq]
    exact hothers q hq
  · rw [harb]
    refine hserves.congr fun q => .inl ?_
    by_cases e : q = p
    · rw [e, Function.update_self, Function.update_self]
    · rw [Function.update_of_ne e, Function.update_of_ne e, State.subs, State.subs, hring q e]

theorem State.linesOkBut.setPort (h : s.linesOkBut p) (r : Port) : (s.setPort p r).linesOkBut p :=
  h.congr (fun q hq => by simp [Four.get_set, hq]) (fun _ _ => rfl) (fun _ _ => rfl) rfl

theorem State.linesOkBut.setRing (h : s.linesOkBut p) (g : Ring) : (s.setRing p g).linesOkBut p :=
  h.congr (fun _ _ => rfl) (fun _ _ => rfl) (fun q hq => by simp [Four.get_set, hq]) rfl

theorem State.linesOkBut.setTone (h : s.linesOkBut p) (t : Tone) : (s.setTone p t).linesOkBut p :=
  h.congr (fun _ _ => rfl) (fun q hq => by simp [Four.get_set, hq]) (fun _ _ => rfl) rfl

theorem State.linesOkBut.of_fields (h : s.linesOkBut p) (hport : t.port = s.port) (htone : t.tone = s.tone) (hring : t.ring = s.ring)
    (harb : t.arb = s.arb) : t.linesOkBut p :=
  h.congr (fun _ _ => by rw [hport]) (fun _ _ => by rw [htone]) (fun _ _ => by rw [hring]) harb

theorem State.linesOkBut.giveMark (h : s.linesOkBut p) (m : Mark) : (s.giveMark m).linesOkBut p :=
  h.of_fields (s.giveMark_port m) (s.giveMark_tone m) (s.giveMark_ring m) (s.giveMark_arb m)

theorem State.linesOk_giveMark (m : Mark) (h : s.linesOk) : (s.giveMark m).linesOk :=
  State.linesOk_of_fields h (s.giveMark_port m) (s.giveMark_tone m) (s.giveMark_ring m) (s.giveMark_arb m)

/-! ### The supply's own operations (R138, R139) -/

theorem State.setGrant_arb_grant (s : State) (x : Bool) (holder : Option LineNo) : (s.setGrant x holder).arb = s.arb.grant x holder := rfl

/-- The ring context of a port that begins a burst (R138, R139). -/
def Ring.inBurst (g : Ring) : Ring :=
  { g with
    sub := .burst, run := g.run.map (fun c => c.moveTo c.pos), level := true, drive := 0, trip := 0
    bursts := min 65535 (g.bursts + 1) }

theorem State.startBurst_eq (s : State) (p : LineNo) : s.startBurst p = s.setRing p (s.ring.get p).inBurst := rfl

/-- The ring context of a port that waits (R138). -/
def Ring.inWait (g : Ring) (stamp : Word) : Ring :=
  { g with sub := .waitGrant, run := g.run.map (fun c => c.moveTo c.pos), waitStamp := stamp }

theorem State.askGrant_of_freeA {s : State} {p : LineNo} (h : s.arb.grantA = none) :
    s.askGrant p = (s.setGrant true (some p)).setRing p (s.ring.get p).inBurst := by
  rw [State.askGrant, if_pos h]
  rfl

theorem State.askGrant_of_freeB {s : State} {p : LineNo} (hA : s.arb.grantA ≠ none) (hB : s.arb.grantB = none) :
    s.askGrant p = (s.setGrant false (some p)).setRing p (s.ring.get p).inBurst := by
  rw [State.askGrant, if_neg hA, if_pos hB]
  rfl

/-- A port at an on-half with both grants held, before it joins the list (R138). -/
def State.asWaiting (s : State) (p : LineNo) : State := s.setRing p ((s.ring.get p).inWait s.clock.boundaries)

/-- The wait list once the port has joined it (R138). -/
def State.waitJoined (s : State) (p : LineNo) : List LineNo :=
  joinWait (fun q => ((s.asWaiting p).ring.get q).waitStamp) s.clock.boundaries p s.arb.waitList

theorem State.askGrant_of_busy {s : State} {p : LineNo} (hA : s.arb.grantA ≠ none) (hB : s.arb.grantB ≠ none) :
    s.askGrant p = { s.asWaiting p with arb := { s.arb with waitList := s.waitJoined p } } := by
  rw [State.askGrant, if_neg hA, if_neg hB]
  rfl

theorem State.startBurst_subs (s : State) (p : LineNo) : (s.startBurst p).subs = Function.update s.subs p .burst := by
  funext q
  by_cases e : q = p <;> simp [State.subs, State.startBurst, Four.get_set, e]

/-- A burst that a ringing port begins leaves it ringing. -/
theorem lineLocal_burst {r : Port} {t : Tone} {g g' : Ring} (h : lineLocal r t g) (hsub : g.sub ≠ .none) (hsub' : g'.sub ≠ .none)
    (hrun : g'.run.isSome = g.run.isSome) : lineLocal r t g' := by
  obtain ⟨hcounts, htone, hone, hring, hs⟩ := h
  exact ⟨hcounts, htone, hone, hrun ▸ hring, iff_of_true hsub' (hs.mp hsub)⟩

/-- A grant passed on: the port that held it is out of the supply. -/
theorem State.linesOkBut_passGrant (x : Bool) (h : s.linesOk) (hp : s.arb.holder x = some p) : (s.passGrant x).linesOkBut p := by
  obtain ⟨hlocal, hserves⟩ := s.linesOk_iff.mp h
  cases hw : s.arb.waitList with
  | nil =>
    rw [State.passGrant_nil x hw]
    exact ⟨fun q _ => hlocal q, hserves.free x hp hw⟩
  | cons q qs =>
    have hwait : (s.ring.get q).sub = .waitGrant := (hserves.wait q).mpr (hw ▸ List.mem_cons_self)
    rw [State.passGrant_cons x hw]
    refine ⟨fun r hr => ?_, ?_⟩
    · by_cases e : r = q
      · subst e
        refine lineLocal_burst (hlocal r) (by rw [hwait]; nofun) ?_ ?_
        · simp [State.startBurst]
        · simp [State.startBurst]
      · simpa [State.startBurst, Four.get_set, e] using hlocal r
    · have hsubs := State.startBurst_subs (({ s with arb := { s.arb with waitList := qs } } : State).setGrant x (some q)) q
      have hpass := hserves.pass x hp hw
      rw [← Arbiter.grant_waitList] at hpass
      show Arbiter.Serves _ (Function.update (State.subs (State.startBurst _ q)) p .rest)
      rw [hsubs]
      exact hpass

/-- A release leaves the port that held a grant out of the supply. -/
theorem State.linesOkBut_releaseGrant (h : s.linesOk) (hsub : (s.ring.get p).sub = .burst) : (s.releaseGrant p).linesOkBut p := by
  have hlow : (s.setRing p { s.ring.get p with level := false }).linesOk := by
    refine State.linesOk_congr h (fun q => ⟨rfl, rfl, rfl, rfl, rfl, ?_⟩) rfl
    by_cases e : q = p <;> simp [Four.get_set, e]
  have hheld := ((s.linesOk_iff.mp h).2.burst p).mp hsub
  unfold State.releaseGrant
  dsimp only
  split
  · next hA => exact State.linesOkBut_passGrant true hlow hA
  · next hA =>
    split
    · next hB => exact State.linesOkBut_passGrant false hlow hB
    · next hB => exact absurd (hheld.resolve_left hA) hB

theorem State.linesOkBut_leaveSupply (h : s.linesOk) : (s.leaveSupply p).linesOkBut p := by
  unfold State.leaveSupply
  split
  · next hsub => exact State.linesOkBut_releaseGrant h hsub
  · next hsub =>
    obtain ⟨hlocal, hserves⟩ := s.linesOk_iff.mp h
    exact ⟨fun q _ => hlocal q, hserves.leave hsub⟩
  · next hb hw => exact h.open ⟨hb, hw⟩

/-- A port that rings but for its sub-phase enters one. -/
theorem State.linesOkBut.enter (h : s.linesOkBut p) (hr : s.ready p) {g : Ring} (hsub : g.sub ≠ .none)
    (hrun : g.run.isSome = (s.ring.get p).run.isSome) (ha : t.arb.Serves (Function.update s.subs p g.sub)) (hport : t.port = s.port)
    (htone : t.tone = s.tone) (hring : t.ring = s.ring.set p g) : t.linesOk := by
  refine t.linesOk_iff.mpr ⟨fun q => ?_, ?_⟩
  · rw [hport, htone, hring, Four.get_set]
    split
    · next e =>
      rw [e]
      exact lineLocal_burst hr nofun hsub hrun
    · next e => exact h.1 q e
  · have hsubs : t.subs = Function.update s.subs p g.sub := by
      funext q
      by_cases e : q = p <;> simp [State.subs, hring, Four.get_set, e]
    rwa [hsubs]

/-- The same, into a sub-phase that is none of the supply's. -/
theorem State.linesOkBut.enterOff (h : s.linesOkBut p) (hr : s.ready p) {g : Ring} (hsub : g.sub ≠ .none) (hoff : g.sub.off)
    (hrun : g.run.isSome = (s.ring.get p).run.isSome) : (s.setRing p g).linesOk := by
  refine h.enter hr hsub hrun (h.2.congr fun q => ?_) rfl rfl rfl
  by_cases e : q = p
  · subst e
    rw [Function.update_self, Function.update_self]
    exact .inr ⟨⟨nofun, nofun⟩, hoff⟩
  · rw [Function.update_of_ne e, Function.update_of_ne e]
    exact .inl rfl

/-- A port out of the supply that rings but for its sub-phase is in order once it has asked for a grant. -/
theorem State.linesOk_askGrant (h : s.linesOkBut p) (hr : s.ready p) : (s.askGrant p).linesOk := by
  have hburst : (s.ring.get p).inBurst.run.isSome = (s.ring.get p).run.isSome := by simp [Ring.inBurst]
  have hwait : ∀ stamp, ((s.ring.get p).inWait stamp).run.isSome = (s.ring.get p).run.isSome := fun _ => by simp [Ring.inWait]
  by_cases hA : s.arb.grantA = none
  · rw [State.askGrant_of_freeA hA]
    exact h.enter (g := (s.ring.get p).inBurst) hr nofun hburst (h.2.take true hA) rfl rfl rfl
  · by_cases hB : s.arb.grantB = none
    · rw [State.askGrant_of_freeB hA hB]
      exact h.enter (g := (s.ring.get p).inBurst) hr nofun hburst (h.2.take false hB) rfl rfl rfl
    · rw [State.askGrant_of_busy hA hB]
      exact h.enter (g := (s.ring.get p).inWait s.clock.boundaries) hr nofun (hwait _) (h.2.join hA hB _ _) rfl rfl rfl

/-! ### Ringing -/

theorem State.linesOk.ready (h : s.linesOk) (hsub : (s.ring.get p).sub ≠ .none) : s.ready p :=
  lineLocal_burst (h.local p) hsub nofun rfl

/-- A ready port stays so while its port and tone records stay and its run is replaced by a run. -/
theorem State.ready.congr (h : s.ready p) (hport : t.port.get p = s.port.get p) (htone : t.tone.get p = s.tone.get p)
    (hrun : (t.ring.get p).run.isSome = (s.ring.get p).run.isSome) : t.ready p := by
  unfold State.ready
  rw [hport, htone]
  exact lineLocal_burst h nofun nofun hrun

/-- What a ring run that ends leaves: no run, no sub-phase, and the port in another state than RINGING. -/
theorem lineLocal_ended {r r' : Port} {t : Tone} {g g' : Ring} (h : lineLocal r t g) (hring : r.state = .ringing)
    (hstate : r'.state ≠ .ringing) (hcounts : r'.breakCount = none ∧ r'.gapCount = none) (hrun : g'.run = none) (hsub : g'.sub = .none) :
    lineLocal r' t g' := by
  obtain ⟨-, htone, hone, -, -⟩ := h
  refine ⟨fun _ => hcounts, fun ht => ?_, hone, ?_, ?_⟩
  · rw [htone ht] at hring
    cases hring
  · rw [hrun]
    exact iff_of_false nofun hstate
  · rw [hsub]
    exact iff_of_false (fun hne => hne rfl) hstate

theorem State.ready.ringing (h : s.ready p) : (s.port.get p).state = .ringing := h.2.2.2.2.mp nofun

theorem State.ready.counts (h : s.ready p) : (s.port.get p).breakCount = none ∧ (s.port.get p).gapCount = none :=
  h.1 (by rw [h.ringing]; nofun)

/-- A run ended and its port's record replaced, the port being out of the supply. -/
theorem State.linesOk_ended (h : s.linesOkBut p) (hr : s.ready p) {r : Port} (hstate : r.state ≠ .ringing)
    (hcounts : r.breakCount = none ∧ r.gapCount = none) : ((s.endRing p).setPort p r).linesOk := by
  have hbut : ((s.endRing p).setPort p r).linesOkBut p :=
    State.linesOkBut.setPort (State.linesOkBut.of_fields (h.setRing _) rfl rfl rfl rfl) r
  refine hbut.close ?_ ?_
  · simpa [State.endRing] using lineLocal_ended (g' := { s.ring.get p with run := none, sub := .none, level := false }) hr hr.ringing hstate hcounts rfl rfl
  · simp [State.endRing, SubPhase.off]

/-- A grant passed on starts no run and ends none. -/
theorem State.passGrant_run (s : State) (x : Bool) (p : LineNo) : ((s.passGrant x).ring.get p).run.isSome = (s.ring.get p).run.isSome := by
  cases hw : s.arb.waitList with
  | nil => rw [State.passGrant_nil x hw]; rfl
  | cons q qs =>
    rw [State.passGrant_cons x hw]
    by_cases e : p = q <;> simp [State.startBurst, Four.get_set, e]

theorem State.releaseGrant_run (s : State) (p : LineNo) : ((s.releaseGrant p).ring.get p).run.isSome = (s.ring.get p).run.isSome := by
  have hlow : ((s.setRing p { s.ring.get p with level := false }).ring.get p).run.isSome = (s.ring.get p).run.isSome := by simp
  unfold State.releaseGrant
  dsimp only
  split
  · exact (State.passGrant_run _ true p).trans hlow
  · split
    · exact (State.passGrant_run _ false p).trans hlow
    · exact hlow

theorem State.leaveSupply_run (s : State) (p : LineNo) : ((s.leaveSupply p).ring.get p).run.isSome = (s.ring.get p).run.isSome := by
  unfold State.leaveSupply
  split
  · exact s.releaseGrant_run p
  · rfl
  · rfl

/-- A ring order that ends leaves the lines in order: the supply left, the identity ended in whatever way, the run ended and the port's
record replaced by one that does not ring. -/
theorem State.linesOk_leave (h : s.linesOk) (hsub : (s.ring.get p).sub ≠ .none) (hport : t.port = (s.leaveSupply p).port)
    (htone : t.tone = (s.leaveSupply p).tone) (hring : t.ring = (s.leaveSupply p).ring) (harb : t.arb = (s.leaveSupply p).arb) {r : Port}
    (hstate : r.state ≠ .ringing) (hcounts : r.breakCount = none ∧ r.gapCount = none) : ((t.endRing p).setPort p r).linesOk := by
  have hr : (s.leaveSupply p).ready p := (h.ready hsub).congr (by simp) (by simp) (s.leaveSupply_run p)
  refine State.linesOk_ended ((State.linesOkBut_leaveSupply h).of_fields hport htone hring harb) ?_ hstate hcounts
  exact hr.congr (by rw [hport]) (by rw [htone]) (by rw [hring])

theorem State.linesOk_ringTrip (h : s.linesOk) (hsub : (s.ring.get p).sub ≠ .none) : (s.ringTrip p).linesOk :=
  State.linesOk_giveMark _ (State.linesOk_leave h hsub (by simp) (by simp) (by simp) (by simp) nofun ⟨rfl, rfl⟩)

theorem State.linesOk_stopRing (h : s.linesOk) (hsub : (s.ring.get p).sub ≠ .none) : (s.stopRing p).linesOk := by
  have hcounts := (h.ready hsub).counts
  exact State.linesOk_leave h hsub (by simp) (by simp) (by simp) (by simp) nofun (by simpa using hcounts)

theorem State.linesOk_completeRing (h : s.linesOkBut p) (hr : s.ready p) : (s.completeRing p).linesOk :=
  State.linesOk_giveMark _ (State.linesOk_ended h hr nofun (by simpa using hr.counts))

theorem State.linesOk_advanceRing (h : s.linesOkBut p) (hr : s.ready p) : (s.advanceRing p).linesOk := by
  unfold State.advanceRing
  dsimp only
  split
  · next hnone =>
    have hsome : (s.ring.get p).run.isSome = true := hr.2.2.2.1.mpr hr.ringing
    rw [hnone] at hsome
    cases hsome
  · next c hrun =>
    split
    · exact State.linesOk_completeRing h hr
    · split
      · exact State.linesOk_askGrant (h.setRing _) (hr.congr rfl rfl (by simp [hrun]))
      · exact h.enterOff hr nofun ⟨nofun, nofun⟩ (by simp [hrun])

theorem State.linesOk_beginIdentHold (h : s.linesOkBut p) (hr : s.ready p) : (s.beginIdentHold p).linesOk :=
  State.linesOk_of_fields (h.enterOff hr (g := { s.ring.get p with
    run := (s.ring.get p).run.map fun c =>
      match c.nextHalf with
      | some pos => if c.isOn pos then { c with count := 0 } else c.moveTo pos
      | none => { c with count := 0 }
    sub := .rest }) nofun ⟨nofun, nofun⟩ (by simp)) rfl rfl rfl rfl

theorem State.linesOk_endBurst (h : s.linesOk) (hsub : (s.ring.get p).sub = .burst) : (s.endBurst p).linesOk := by
  have hbut := State.linesOkBut_releaseGrant h hsub
  have hr : (s.releaseGrant p).ready p := (h.ready (by rw [hsub]; nofun)).congr (by simp) (by simp) (s.releaseGrant_run p)
  unfold State.endBurst
  dsimp only
  split
  · exact State.linesOk_beginIdentHold hbut hr
  · exact State.linesOk_advanceRing hbut hr

/-- A ring context replaced by one with a run or none as before and in the same sub-phase. -/
theorem State.linesOk_setRing (h : s.linesOk) {g : Ring} (hrun : g.run.isSome = (s.ring.get p).run.isSome)
    (hsub : g.sub = (s.ring.get p).sub) : (s.setRing p g).linesOk := by
  refine State.linesOk_congr h (fun q => ⟨rfl, rfl, rfl, rfl, rfl, ?_⟩) rfl
  by_cases e : q = p
  · subst e
    simpa using ⟨hrun, hsub⟩
  · simp [Four.get_set, e]

theorem State.linesOk_countRest (h : s.linesOk) (hoff : (s.ring.get p).sub.off) (hsub : (s.ring.get p).sub ≠ .none) :
    (s.countRest p).linesOk := by
  have hcounted : (s.setRing p ((s.ring.get p).withCount ((s.ring.get p).segment - 1))).linesOk :=
    State.linesOk_setRing h (by simp [Ring.withCount]) rfl
  unfold State.countRest
  dsimp only
  split
  · exact State.linesOk_advanceRing (hcounted.open (by simpa [Ring.withCount] using hoff)) (hcounted.ready (by simpa [Ring.withCount] using hsub))
  · exact hcounted

/-- Identity moves on between REST and IDENT alone. -/
theorem State.linesOk_identStep (h : s.linesOk) (hsub : (s.ring.get p).sub = .rest ∨ (s.ring.get p).sub = .ident) :
    (s.identStep p).linesOk ∧ (((s.identStep p).ring.get p).sub = .rest ∨ ((s.identStep p).ring.get p).sub = .ident) := by
  have hoff : (s.ring.get p).sub.off ∧ (s.ring.get p).sub ≠ .none := by
    rcases hsub with e | e <;> rw [e] <;> exact ⟨⟨nofun, nofun⟩, nofun⟩
  obtain ⟨hoff, hne⟩ := hoff
  have hident : ∀ i, (s.setIdent p i).linesOk := fun _ => State.linesOk_of_fields h rfl rfl rfl rfl
  have hmove : ∀ (i : Ident) (x : SubPhase), x ≠ .none → x.off →
      ((s.setIdent p i).setRing p { s.ring.get p with sub := x }).linesOk := fun i x hx hxoff =>
    State.linesOkBut.enterOff ((hident i).open hoff) ((hident i).ready hne) hx hxoff rfl
  unfold State.identStep
  dsimp only
  split
  · split
    · exact ⟨h, hsub⟩
    · split
      · exact ⟨hmove _ .ident nofun ⟨nofun, nofun⟩, .inr (by simp)⟩
      · exact ⟨hident _, hsub⟩
  · split
    · exact ⟨State.linesOk_giveMark _ (hmove _ .rest nofun ⟨nofun, nofun⟩), .inl (by simp [State.giveLineMark])⟩
    · exact ⟨hident _, hsub⟩
  · split
    · exact ⟨hident _, hsub⟩
    · exact ⟨hident _, hsub⟩
  · exact ⟨h, hsub⟩

theorem State.linesOk_ringTick (h : s.linesOk) : (s.ringTick p).linesOk := by
  have hrest : (s.ring.get p).sub = .rest ∨ (s.ring.get p).sub = .ident → ((s.identStep p).countRest p).linesOk := by
    intro hsub
    obtain ⟨hstep, hsub'⟩ := State.linesOk_identStep h hsub
    rcases hsub' with e | e
    · exact State.linesOk_countRest hstep (by rw [e]; exact ⟨nofun, nofun⟩) (by rw [e]; nofun)
    · exact State.linesOk_countRest hstep (by rw [e]; exact ⟨nofun, nofun⟩) (by rw [e]; nofun)
  unfold State.ringTick
  dsimp only
  split
  · next hsub =>
    have hcounted : (s.setRing p ((s.ring.get p).withCount ((s.ring.get p).segment - 1))).linesOk :=
      State.linesOk_setRing h (by simp [Ring.withCount]) rfl
    split
    · exact State.linesOk_endBurst hcounted (by simpa [Ring.withCount] using hsub)
    · exact hcounted
  · next hsub => exact hrest (.inl hsub)
  · next hsub => exact hrest (.inr hsub)
  · exact h
  · exact h

theorem State.linesOk_ringScan (h : s.linesOk) (trip : Bool) : (s.ringScan p trip).linesOk := by
  unfold State.ringScan
  dsimp only
  split
  · next hsub =>
    split
    · exact State.linesOk_setRing h rfl rfl
    · split
      · exact State.linesOk_ringTrip h (by rw [hsub]; nofun)
      · exact State.linesOk_setRing h rfl rfl
  · exact h
  · next hsub =>
    split
    · exact State.linesOk_ringTrip h hsub
    · exact h

/-- A port that is IDLE has no run and no sub-phase. -/
theorem State.linesOk.notRinging (h : s.linesOk) (hs : (s.port.get p).state ≠ .ringing) :
    (s.ring.get p).run = none ∧ (s.ring.get p).sub = .none := by
  obtain ⟨-, -, -, hrun, hsub⟩ := h.local p
  refine ⟨?_, ?_⟩
  · cases hr : (s.ring.get p).run with
    | none => rfl
    | some c => exact absurd (hrun.mp (by rw [hr]; rfl)) hs
  · by_contra hne
    exact hs (hsub.mp hne)

theorem State.linesOk_startRing (h : s.linesOk) (hidle : (s.port.get p).state = .idle) (run : CadenceRun) (freq : Nat) (body : List Byte) :
    (s.startRing p run freq body).linesOk := by
  obtain ⟨-, htone, hone, -, -⟩ := h.local p
  obtain ⟨-, hsub⟩ := h.notRinging (p := p) (by rw [hidle]; nofun)
  have hbut := (((h.open (p := p) (by rw [hsub]; exact ⟨nofun, nofun⟩)).setPort { s.port.get p with
    state := .ringing, breakCount := none, gapCount := none, pulses := 0 }).setRing { s.ring.get p with
      run := some run, freq := freq, trip := 0, bursts := 0 })
  have hready : lineLocal { s.port.get p with state := .ringing, breakCount := none, gapCount := none, pulses := 0 } (s.tone.get p)
      { s.ring.get p with run := some run, freq := freq, trip := 0, bursts := 0, sub := .rest } := by
    refine ⟨fun _ => ⟨rfl, rfl⟩, fun ht => ?_, hone, iff_of_true rfl rfl, iff_of_true nofun rfl⟩
    rw [hidle] at htone
    cases htone ht
  unfold State.startRing
  dsimp only
  split
  · exact State.linesOk_askGrant (hbut.of_fields rfl rfl rfl rfl) (by simpa [State.ready] using hready)
  · refine State.linesOkBut.enterOff (hbut.of_fields rfl rfl rfl rfl) (by simpa [State.ready] using hready) nofun ⟨nofun, nofun⟩ rfl

theorem State.linesOk_passFree (h : s.linesOk) : s.passFree = s := by
  unfold State.passFree
  split
  · rfl
  · next hw =>
    obtain ⟨hA, hB⟩ := (s.linesOk_iff.mp h).2.busy hw
    rw [if_neg hA, if_neg hB]

/-! ### Ports and tones -/

/-- A port record replaced by one that keeps its line in order. -/
theorem State.linesOk_setPort (h : s.linesOk) {r : Port} (hl : lineLocal r (s.tone.get p) (s.ring.get p)) : (s.setPort p r).linesOk := by
  obtain ⟨hlocal, hserves⟩ := s.linesOk_iff.mp h
  refine (s.setPort p r).linesOk_iff.mpr ⟨fun q => ?_, hserves⟩
  by_cases e : q = p
  · subst e
    simpa using hl
  · simpa [Four.get_set, e] using hlocal q

/-- The same, with the state and the counts as they were. -/
theorem State.linesOk_setPort_of_fields (h : s.linesOk) {r : Port} (hs : r.state = (s.port.get p).state)
    (hb : r.breakCount = (s.port.get p).breakCount) (hg : r.gapCount = (s.port.get p).gapCount) : (s.setPort p r).linesOk :=
  State.linesOk_setPort h (lineLocal_congr (h.local p) hs hb hg rfl rfl rfl rfl)

/-- The same, with the state as it was and that state OFFHOOK. -/
theorem State.linesOk_setPort_offhook (h : s.linesOk) {r : Port} (hs : r.state = (s.port.get p).state)
    (hoff : (s.port.get p).state = .offhook) : (s.setPort p r).linesOk := by
  obtain ⟨-, htone, hone, hrun, hsub⟩ := h.local p
  exact State.linesOk_setPort h ⟨fun hne => absurd (hs.trans hoff) hne, fun ht => hs.trans (htone ht), hone, hs ▸ hrun, hs ▸ hsub⟩

theorem State.linesOk_setTone (h : s.linesOk) {t : Tone} (hr : t.running = true → (s.tone.get p).running = true)
    (hone : t.run.isSome = t.running) : (s.setTone p t).linesOk := by
  obtain ⟨hlocal, hserves⟩ := s.linesOk_iff.mp h
  refine (s.setTone p t).linesOk_iff.mpr ⟨fun q => ?_, hserves⟩
  by_cases e : q = p
  · subst e
    obtain ⟨hcounts, htone, -, hrun, hsub⟩ := hlocal q
    have hl : lineLocal (s.port.get q) t (s.ring.get q) := ⟨hcounts, fun ht => htone (hr ht), hone, hrun, hsub⟩
    simpa using hl
  · simpa [Four.get_set, e] using hlocal q

theorem State.linesOk_endTone (h : s.linesOk) : (s.endTone p).linesOk := State.linesOk_setTone h nofun rfl

theorem State.linesOk_toneTick (h : s.linesOk) : (s.toneTick p).linesOk := by
  obtain ⟨-, -, hone, -, -⟩ := h.local p
  unfold State.toneTick
  dsimp only
  split
  · exact h
  · next c hrun =>
    have hrunning : (s.tone.get p).running = true := by rw [← hone, hrun]; rfl
    split
    · exact State.linesOk_setTone h id hrunning.symm
    · split
      · refine State.linesOk_setTone h ?_ ?_
        · unfold Tone.toHalf
          split <;> exact id
        · unfold Tone.toHalf
          split <;> exact hrunning.symm
      · exact State.linesOk_giveMark _ (State.linesOk_endTone h)

theorem State.linesOk_startTone (h : s.linesOk) (hoff : (s.port.get p).state = .offhook) (index cadence : Nat) (r : ToneRecord)
    (run : CadenceRun) : (s.startTone p index cadence r run).linesOk := by
  obtain ⟨hlocal, hserves⟩ := s.linesOk_iff.mp h
  unfold State.startTone
  refine State.linesOk_iff _ |>.mpr ⟨fun q => ?_, hserves⟩
  by_cases e : q = p
  · subst e
    obtain ⟨hcounts, -, -, hrun, hsub⟩ := hlocal q
    simpa [lineLocal] using ⟨hcounts, hoff, hrun, hsub⟩
  · simpa [Four.get_set, e] using hlocal q

theorem State.linesOk_tickStep (h : s.linesOk) : (s.tickStep p).linesOk := by
  unfold State.tickStep
  split
  · exact State.linesOk_ringTick h
  · exact State.linesOk_toneTick h

/-- A port seized goes from IDLE to OFFHOOK. -/
theorem State.linesOk_seize (h : s.linesOk) (hidle : (s.port.get p).state = .idle) : (s.seize p).linesOk := by
  obtain ⟨-, -, hone, -, -⟩ := h.local p
  obtain ⟨hrun, hsub⟩ := h.notRinging (p := p) (by rw [hidle]; nofun)
  refine State.linesOk_giveMark _ (State.linesOk_setPort h ⟨fun hne => absurd rfl hne, fun _ => rfl, hone, ?_, ?_⟩)
  · rw [hrun]
    exact iff_of_false nofun nofun
  · rw [hsub]
    exact iff_of_false (fun hne => hne rfl) nofun

theorem State.linesOk_reportDigit (h : s.linesOk) : (s.reportDigit p).linesOk := by
  have hport : (s.setPort p { s.port.get p with pulses := 0, gapCount := none }).linesOk := by
    obtain ⟨hcounts, hall⟩ := h.local p
    exact State.linesOk_setPort h ⟨fun hne => ⟨(hcounts hne).1, rfl⟩, hall⟩
  unfold State.reportDigit
  dsimp only
  split
  · exact hport
  · split
    · exact State.linesOk_giveMark _ hport
    · split
      · exact State.linesOk_giveMark _ hport
      · exact State.linesOk_giveMark _ hport

theorem State.linesOk_undue (e : Event) (h : s.linesOk) : (s.undue e).linesOk := State.linesOk_of_fields h rfl rfl rfl rfl

theorem State.linesOk_makeBreak (h : s.linesOk) (hoff : (s.port.get p).state = .offhook) (b : Nat) : (s.makeBreak p b).linesOk := by
  have hport : ∀ r : Port, r.state = (s.port.get p).state → (s.setPort p r).linesOk := fun r hr => State.linesOk_setPort_offhook h hr hoff
  unfold State.makeBreak
  dsimp only
  split
  · split
    · exact State.linesOk_undue _ (hport _ rfl)
    · exact hport _ rfl
  · split
    · exact State.linesOk_undue _ (hport _ rfl)
    · exact State.linesOk_giveMark _ (State.linesOk_reportDigit (hport _ rfl))

theorem State.linesOk_offhookScan (h : s.linesOk) (hoff : (s.port.get p).state = .offhook) (was : Bool) :
    (s.offhookScan p was).linesOk := by
  unfold State.offhookScan
  dsimp only
  split
  · exact State.linesOk_undue _ (State.linesOk_setPort_offhook h rfl hoff)
  · split
    · split
      · exact State.linesOk_makeBreak h hoff _
      · exact h
    · exact h

theorem Port.filterHook_state (r : Port) (raw : Bool) : (r.filterHook raw).state = r.state := by rw [Port.filterHook_eq]

theorem State.linesOk_scanStep (h : s.linesOk) (hook trip : Bool) : (s.scanStep p hook trip).linesOk := by
  have hfilter : (s.setPort p ((s.port.get p).filterHook hook)).linesOk := by
    refine State.linesOk_setPort_of_fields h ?_ ?_ ?_ <;> rw [Port.filterHook_eq]
  have hstate : ((s.setPort p ((s.port.get p).filterHook hook)).port.get p).state = (s.port.get p).state := by
    rw [State.setPort_port, Four.get_set_same, Port.filterHook_state]
  unfold State.scanStep
  dsimp only
  split
  · exact h
  · next hidle =>
    split
    · exact State.linesOk_seize hfilter (hstate.trans hidle)
    · exact hfilter
  · exact State.linesOk_ringScan hfilter trip
  · next hoff => exact State.linesOk_offhookScan hfilter (hstate.trans hoff) _

/-- A port that counts is OFFHOOK. -/
theorem State.linesOk.offhook_of_counts (h : s.linesOk) (hc : (s.port.get p).breakCount ≠ none ∨ (s.port.get p).gapCount ≠ none) :
    (s.port.get p).state = .offhook := by
  by_contra hne
  obtain ⟨hb, hg⟩ := (h.local p).1 hne
  exact hc.elim (· hb) (· hg)

/-- A line that is OFFHOOK left for another state, its tone ended. -/
theorem State.linesOk_dropLine (h : s.linesOk) (hs : (s.port.get p).state ≠ .ringing) {r : Port} (hr : r.state ≠ .ringing)
    (hcounts : r.breakCount = none ∧ r.gapCount = none) : ((s.endTone p).setPort p r).linesOk := by
  obtain ⟨hrun, hsub⟩ := h.notRinging hs
  refine State.linesOk_setPort (State.linesOk_endTone h) ⟨fun _ => hcounts, ?_, ?_, ?_, ?_⟩
  · simp [State.endTone, Tone.ended]
  · simp [State.endTone, Tone.ended]
  · rw [State.endTone, State.setTone_ring, hrun]
    exact iff_of_false nofun hr
  · rw [State.endTone, State.setTone_ring, hsub]
    exact iff_of_false (fun hne => hne rfl) hr

theorem State.linesOk_clearLine (h : s.linesOk) (hoff : (s.port.get p).state = .offhook) : (s.clearLine p).linesOk := by
  have hdrop : ((s.endTone p).setPort p { s.port.get p with pulses := 0, breakCount := none, gapCount := none, state := .idle }).linesOk :=
    State.linesOk_dropLine h (by rw [hoff]; nofun) nofun ⟨rfl, rfl⟩
  refine State.linesOk_giveMark _ (State.linesOk_of_fields hdrop rfl ?_ rfl rfl)
  simp [State.endTone]

theorem State.linesOk_timerStep (h : s.linesOk) : (s.timerStep p).linesOk := by
  have hbreak : (s.expireBreak p).linesOk := by
    unfold State.expireBreak
    dsimp only
    split
    · exact h
    · next b hb =>
      have hoff := h.offhook_of_counts (p := p) (.inl (by rw [hb]; nofun))
      split
      · exact State.linesOk_clearLine h hoff
      · exact State.linesOk_setPort_offhook h rfl hoff
  have hgap : ∀ u : State, u.linesOk → (u.expireGap p).linesOk := by
    intro u hu
    unfold State.expireGap
    dsimp only
    split
    · exact hu
    · next g hg =>
      split
      · exact State.linesOk_reportDigit hu
      · exact State.linesOk_setPort_offhook hu rfl (hu.offhook_of_counts (.inr (by rw [hg]; nofun)))
  exact hgap _ hbreak

theorem State.linesOk_orderPortDown (h : s.linesOk) : (s.orderPortDown p).1.linesOk := by
  unfold State.orderPortDown
  dsimp only
  split
  · next hring =>
    have hne : (s.ring.get p).sub ≠ .none := (h.local p).2.2.2.2.mpr hring
    exact State.linesOk_leave h hne (by simp) (by simp) (by simp) (by simp) nofun ⟨rfl, rfl⟩
  · next hoff => exact State.linesOk_dropLine h (by rw [hoff]; nofun) nofun ⟨rfl, rfl⟩
  · next hnr hno =>
    obtain ⟨-, htone, hone, -, -⟩ := h.local p
    obtain ⟨hrun, hsub⟩ := h.notRinging hnr
    refine State.linesOk_setPort h ⟨fun _ => ⟨rfl, rfl⟩, fun ht => absurd (htone ht) hno, hone, ?_, ?_⟩
    · rw [hrun]
      exact iff_of_false nofun nofun
    · rw [hsub]
      exact iff_of_false (fun hne => hne rfl) nofun

/-! ### Verdicts, channels and sweeps leave the lines -/

theorem State.linesOk_updateRun (k : RunKind) (time : Word) (fv : FrameVerdict) (h : s.linesOk) : (s.updateRun p k time fv).linesOk := by
  unfold State.updateRun
  dsimp only
  split
  · split
    · exact State.linesOk_giveMark _ (s := s.setVerdict p _) h
    · exact h
  · exact h

theorem State.linesOk_debounce (time : Word) (fv : FrameVerdict) (h : s.linesOk) : (s.debounce p time fv).linesOk := by
  have hoff : ∀ u : State, u.linesOk → (u.digitOffStep p time).linesOk := by
    intro u hu
    unfold State.digitOffStep
    dsimp only
    split
    · exact hu
    · split
      · exact State.linesOk_giveMark _ (s := u.setVerdict p _) hu
      · exact hu
  have hon : ∀ u : State, u.linesOk → (u.digitOnStep p time).linesOk := by
    intro u hu
    unfold State.digitOnStep
    dsimp only
    split
    · split
      · exact State.linesOk_giveMark _ (s := u.setVerdict p _) hu
      · exact hu
    · exact hu
  exact hon _ (hoff _ h)

theorem State.linesOk_lineVerdictStep (h : s.linesOk) : (s.lineVerdictStep p).linesOk := by
  unfold State.lineVerdictStep
  split
  · exact State.linesOk_updateRun _ _ _ (State.linesOk_updateRun _ _ _ (State.linesOk_debounce _ _ h))
  · exact h

theorem State.linesOk_farFrameEvent (h : s.linesOk) : (s.farFrameEvent p).linesOk := by
  have hstep : ∀ (u : State) (f : FarFrame), u.linesOk → (u.farFrameStep p f).linesOk := fun u f hu =>
    State.linesOk_updateRun (s := State.updateRun _ p _ _ _) _ _ _ (State.linesOk_updateRun (s := u.setVerdict p _) _ _ _ hu)
  unfold State.farFrameEvent
  dsimp only
  split
  · split
    · exact h
    · exact hstep _ _ h
  · exact h

theorem State.linesOk_dropRefs (es : List Entry) (h : s.linesOk) : (s.dropRefs es).linesOk :=
  State.linesOk_of_fields h (by simp) (by simp) (by simp) (by simp)

theorem State.linesOk_dropRef (n : CellNo) (h : s.linesOk) : (s.dropRef n).linesOk :=
  State.linesOk_of_fields h (by simp) (by simp) (by simp) (by simp)

theorem State.linesOk_handFrames (ch : LineNo) (out : Frame) (far : Option Frame) (h : s.linesOk) : (s.handFrames ch out far).linesOk := by
  have hport : (s.setPort ch { s.port.get ch with played := out }).linesOk := State.linesOk_setPort_of_fields h rfl rfl rfl
  unfold State.handFrames
  cases far with
  | none => exact hport
  | some f => exact hport

theorem State.linesOk_playBoundary (s : State) (ch : LineNo) (h : s.linesOk) : (s.playBoundary ch).linesOk := by
  have htrim : (s.trimStep ch).linesOk := by
    unfold State.trimStep
    dsimp only
    split
    · exact h
    · exact State.linesOk_dropRef _ (s := s.setChan ch _) h
  have hordinary : ∀ u : State, u.linesOk → (u.ordinaryBoundary ch).linesOk := by
    intro u hu
    unfold State.ordinaryBoundary
    dsimp only
    split
    · exact State.linesOk_handFrames ch _ _ (State.linesOk_dropRef _ (s := u.setChan ch _) hu)
    · split
      · exact State.linesOk_handFrames ch _ _ (s := u.setChan ch _) hu
      · exact State.linesOk_handFrames ch _ _ (s := u.setChan ch _) hu
  unfold State.playBoundary
  dsimp only
  split
  · exact h
  · exact State.linesOk_handFrames ch _ _ h
  · split
    · exact State.linesOk_handFrames ch _ _ (s := s.setChan ch _) h
    · split
      · exact hordinary _ htrim
      · exact hordinary _ h

theorem State.linesOk_enterSteady (ch : LineNo) (explicit : Option Nat) (cause : Half) (h : s.linesOk) :
    (s.enterSteady ch explicit cause).1.linesOk := State.linesOk_giveMark _ (s := s.setChan ch _) h

theorem State.linesOk_triggerEvent (ch : LineNo) (cause : TriggerCause) (h : s.linesOk) : (s.triggerEvent ch cause).linesOk := by
  unfold State.triggerEvent State.takeTrigger
  dsimp only
  split
  · split
    · exact State.linesOk_enterSteady ch none _ (s := s.setVerdict ch _) h
    · exact h
  · exact h

theorem State.linesOk_captureStep (ch : LineNo) (h : s.linesOk) : (s.captureStep ch).linesOk := by
  have hstarve : ∀ u : State, u.linesOk → (u.starvePeriod ch).linesOk := by
    intro u hu
    unfold State.starvePeriod
    dsimp only
    split
    · exact hu
    · exact State.linesOk_giveMark _ (s := (u.setCap ch _).bump ch _) hu
  have hstart : ∀ (u : State) (mode : Mode), u.linesOk → (u.startPeriod ch mode).linesOk := by
    intro u mode hu
    rcases u.claim_or_starve with hs | ⟨n, rest, hs, hr⟩
    · rw [State.startPeriod_starved mode hs]
      exact hstarve _ hu
    · rw [State.startPeriod_claimed mode hs hr, State.putRedundant_eq]
      exact hu
  have hjoin : ∀ (u : State) (f : Frame), u.linesOk → (u.joinPeriod ch f).linesOk := by
    intro u f hu
    have hcoded : (u.codeFrame ch f).linesOk := by
      unfold State.codeFrame
      split
      · exact hu
      · exact hu
    have hend : ∀ v : State, v.linesOk → (v.endPeriod ch).linesOk := by
      intro v hv
      have hheld : (v.sendHeld ch).linesOk := by
        unfold State.sendHeld
        split
        · exact State.linesOk_of_fields hv rfl rfl rfl rfl
        · exact hv
      rw [State.endPeriod_eq]
      exact State.linesOk_of_fields hheld rfl rfl rfl rfl
    rw [State.joinPeriod_eq]
    split
    · exact hend _ hcoded
    · exact hcoded
  have hperiod : ∀ (u : State) (mode : Mode) (active : Bool) (f : Frame), u.linesOk → (u.periodStep ch mode active f).linesOk := by
    intro u mode active f hu
    unfold State.periodStep
    split
    · exact hu
    · exact hjoin _ f hu
    · exact hjoin _ f (hstart _ mode hu)
    · split
      · exact hu
      · exact hjoin _ f (hstart _ mode hu)
  exact hperiod (s.setCap ch _) _ _ _ h

theorem State.linesOk_partEvent (e : PartEvent) (h : s.linesOk) : (s.partEvent e).linesOk := by
  cases e with
  | frameBoundary ch =>
    show (s.takeEvent (.frame ch) fun u => u.playBoundary ch).linesOk
    exact State.takeEvent_keeps h (State.linesOk_playBoundary _ ch h)
  | farFrame p => exact State.linesOk_farFrameEvent h
  | captureEvent ch =>
    show (s.takeEvent (.capture ch) fun u => if (u.chan.get ch).state = .closed then u else u.captureStep ch).linesOk
    refine State.takeEvent_keeps h ?_
    split
    · exact h
    · exact State.linesOk_captureStep (s := s.undue (.capture ch)) ch h
  | lineVerdict p =>
    show (s.takeEvent (.verdict p) fun u => u.lineVerdictStep p).linesOk
    exact State.takeEvent_keeps h (State.linesOk_lineVerdictStep (s := s.undue _) h)
  | toneTrigger ch cause => exact State.linesOk_triggerEvent ch cause h
  | lineScan p hook trip =>
    show (s.takeEvent (.scan p) fun u => u.scanStep p hook trip).linesOk
    exact State.takeEvent_keeps h (State.linesOk_scanStep (State.linesOk_undue _ h) hook trip)
  | portTimer p =>
    show (s.takeEvent (.timer p) fun u => u.timerStep p).linesOk
    exact State.takeEvent_keeps h (State.linesOk_timerStep (State.linesOk_undue _ h))
  | cadenceTick p =>
    show (s.takeEvent (.tick p) fun u => u.tickStep p).linesOk
    exact State.takeEvent_keeps h (State.linesOk_tickStep (State.linesOk_undue _ h))
  | ringDrive p =>
    show (s.driveEvent p).linesOk
    unfold State.driveEvent
    split
    · exact State.linesOk_setRing h rfl rfl
    · exact h
  | markWriter =>
    show (s.takeEvent .markWriter fun u => u.markBoundary).linesOk
    refine State.takeEvent_keeps h ?_
    rw [State.markBoundary_eq]
    exact h

theorem State.linesOk_closeChannel (ch : LineNo) (h : s.linesOk) : (s.closeChannel ch).linesOk := by
  have hclose : ∀ u : State, u.linesOk → (u.closeCapture ch).linesOk := by
    intro u hu
    unfold State.closeCapture
    dsimp only
    split
    · exact hu
    · exact hu
  exact hclose _ (State.linesOk_dropRefs _ (s := s.setChan ch _) h)

theorem State.linesOk_orderRun {n : CellNo} {count : Nat} (ho : s.OrderRun n count t) (h : s.linesOk) : t.linesOk := by
  cases ho with
  | refused => exact h
  | portUp p hdown =>
    obtain ⟨-, htone, hone, -, -⟩ := h.local p
    obtain ⟨hrun, hsub⟩ := h.notRinging (p := p) (by rw [hdown]; nofun)
    refine State.linesOk_setPort h ⟨fun _ => ⟨rfl, rfl⟩, fun ht => ?_, hone, ?_, ?_⟩
    · rw [hdown] at htone
      cases htone ht
    · rw [hrun]
      exact iff_of_false nofun nofun
    · rw [hsub]
      exact iff_of_false (fun hne => hne rfl) nofun
  | portDown p => exact State.linesOk_orderPortDown h
  | polarity p v => exact State.linesOk_setPort_of_fields h rfl rfl rfl
  | timing p f v => exact State.linesOk_setPort_of_fields h rfl rfl rfl
  | ring p run freq body hidle => exact State.linesOk_startRing h hidle run freq body
  | ringStop p hring => exact State.linesOk_stopRing h ((h.local p).2.2.2.2.mpr hring)
  | tone p index cadence r run hoff => exact State.linesOk_startTone h hoff index cadence r run
  | toneStop p => exact State.linesOk_endTone h
  | channelOpen ch raw hc =>
    exact State.linesOk_setPort_of_fields (s := (s.setChan ch _).setCap ch _) h rfl rfl rfl
  | channelClose ch hc => exact State.linesOk_closeChannel ch h
  | enterSteady ch explicit hc hm => exact State.linesOk_enterSteady ch explicit _ h
  | reapplySteady ch explicit hc hm =>
    unfold State.reapplySteady
    dsimp only
    split
    · exact h
    · split
      · exact h
      · exact h
  | returnToSpeech ch hc hm => exact State.linesOk_giveMark _ h
  | snapshot ch off clear hlow hhigh =>
    cases clear with
    | true => exact h
    | false => exact h
  | reserve v => exact h

theorem State.linesOk_arrive (ch : LineNo) (n : CellNo) (coding : Coding) (hd : ParcelHeader) (h : s.linesOk) :
    (s.arrive ch n coding hd).linesOk := by
  have hmove : ∀ (u : State) (kind : ParcelKind), u.linesOk → (u.moveCursor ch kind hd.ts).linesOk := by
    intro u kind hu
    cases kind with
    | anchoring => exact hu
    | reanchoring => exact hu
    | ordinary => exact hu
    | resync early =>
      rw [State.moveCursor, State.resync_eq]
      exact State.linesOk_giveMark _ (s := (u.flushed ch).setChan ch _) (State.linesOk_dropRefs _ (s := u.setChan ch _) hu)
  have hplace : ∀ u : State, u.linesOk → (u.placeParcel ch n coding hd.blocks).linesOk := by
    intro u hu
    unfold State.placeParcel
    dsimp only
    split
    · exact hu
    · exact hu
  exact hplace _ (hmove _ _ h)

theorem Tone.step_fields (t : Tone) : t.step.running = t.running ∧ t.step.run = t.run := by
  unfold Tone.step
  split <;> exact ⟨rfl, rfl⟩

theorem State.linesOk_lineSamples (line : Four Sample) (h : s.linesOk) : (s.lineSamples line).linesOk := by
  refine State.linesOk_congr h (fun q => ?_) rfl
  simp [State.lineSamples, Tone.step_fields]

theorem State.linesOk_sweepWork (h : s.linesOk) : s.sweepWork.linesOk := by
  refine s.sweepWork_keeps State.linesOk (fun _ _ hu => hu) (fun u line hu => ?_) h
  unfold State.passSample
  split
  · exact hu
  · exact State.linesOk_lineSamples line hu

theorem State.linesOk_takeCell (n : CellNo) (posted : Byte) (h : s.linesOk) : (s.takeCell n posted).linesOk := by
  have hsheet : ∀ u : State, u.linesOk → (u.runSheet n).linesOk := by
    intro u hu
    unfold State.runSheet
    dsimp only
    split
    · exact hu
    · exact State.runEntries_keeps (P := State.linesOk) (fun _ hv => State.linesOk_sweepWork hv)
        (fun _ _ ho hv => State.linesOk_orderRun ho hv) (fun _ _ _ _ hv => hv) _ 0 u (by omega) hu
  have hspare : ∀ u : State, u.linesOk → (u.joinSpare n).linesOk := by
    intro u hu
    unfold State.joinSpare
    split
    · exact hu
    · exact hu
  have hparcel : ∀ u : State, u.linesOk → (u.dispatchParcel n).linesOk := by
    intro u hu
    unfold State.dispatchParcel
    dsimp only
    split
    · exact hu
    · exact State.linesOk_arrive _ n _ _ hu
  have htaken : s.sweepWork.linesOk := State.linesOk_sweepWork h
  unfold State.takeCell State.dispatch
  dsimp only
  split
  · exact hparcel _ htaken
  · split
    · exact hsheet _ htaken
    · exact hspare _ htaken

theorem State.linesOk_clash (n : CellNo) (k : Kept) (posted : Byte) (h : s.linesOk) : (s.clash n k posted).linesOk := by
  unfold State.clash
  split
  · exact h
  · exact State.linesOk_giveMark _ (s := s.sweepWork.setKept n _) (State.linesOk_sweepWork h)

theorem State.linesOk_advanceClock (h : s.linesOk) : s.advanceClock.linesOk := by
  have hscan : ∀ u : State, u.linesOk → u.reachScan.linesOk := by
    intro u hu
    have hdrive : ∀ r : Ring, r.driveStep.run = r.run ∧ r.driveStep.sub = r.sub := by
      intro r
      unfold Ring.driveStep
      split <;> exact ⟨rfl, rfl⟩
    refine State.linesOk_congr hu (fun q => ?_) rfl
    simp [State.reachScan, hdrive]
  have hboundary : ∀ u : State, u.linesOk → u.reachBoundary.linesOk := fun u hu =>
    State.linesOk_congr hu (fun q => by simp [State.reachBoundary]) rfl
  have hcounted : s.countSample.linesOk := h
  unfold State.advanceClock
  dsimp only
  split
  · split
    · exact hboundary _ (hscan _ hcounted)
    · exact hscan _ hcounted
  · split
    · exact hboundary _ hcounted
    · exact hcounted

end Lines

theorem linesOk_reset : State.reset.linesOk := by
  unfold State.linesOk State.lineOk
  decide

theorem State.Effect.keeps_linesOk {s t : State} {c : Instr} (h : s.Effect c t) (hs : s.linesOk) : t.linesOk := by
  cases h with
  | nothing => exact hs
  | event c e => exact State.linesOk_partEvent e hs
  | passFree p hr => rwa [State.linesOk_passFree hs]
  | powerOn ram =>
    cases ram with
    | none => exact linesOk_reset
    | some cells => exact linesOk_reset
  | runctl c lanes data hc => exact s.writeRunctl_keeps lanes data linesOk_reset (fun _ hu => hu) (fun _ hu => hu) hs
  | attnctl c lanes data => exact s.writeAttnctl_keeps lanes data fun _ => hs
  | tally c t after =>
    rw [State.operateTally_eq]
    exact hs
  | hostWrite half lanes data => exact State.hostWrite_keeps _ lanes data hs (fun _ _ => hs) fun _ _ _ hu => hu
  | samplePeriod line hr => exact State.linesOk_advanceClock (State.linesOk_lineSamples line hs)
  | sweep work between ht =>
    exact State.sweepStep_keeps (P := State.linesOk) work between (fun _ _ hu => hu) (fun _ hu => hu)
      (fun _ e hu => State.linesOk_partEvent e hu) (fun _ n k _ hu => State.linesOk_clash n k _ hu)
      (fun _ n _ _ hu => State.linesOk_takeCell n _ hu) (s.undue .sweep) hs

/-- There are two grants, so of three ports in BURST two are one. -/
theorem State.linesOk.two_bursts {s : State} (h : s.linesOk) (a b c : LineNo) (hab : a ≠ b) (hac : a ≠ c) (hbc : b ≠ c)
    (ha : (s.ring.get a).sub = .burst) (hb : (s.ring.get b).sub = .burst) : (s.ring.get c).sub ≠ .burst := by
  intro hc
  have hserves := (s.linesOk_iff.mp h).2
  have hga := (hserves.burst a).mp ha
  have hgb := (hserves.burst b).mp hb
  have hgc := (hserves.burst c).mp hc
  grind

/-- Settles O58: a line leaves the supply before its run ends and enters it with its run, so that the supply and the other lines never see a
run half done; whatever else happens to a line leaves its part in the supply. -/
theorem stepKeepsPortsAndRingSupply : Obligations.StepKeepsPortsAndRingSupply :=
  ⟨fun _ _ hs h => step_keeps (P := State.linesOk) (fun _ _ hu => hu) (fun _ _ _ he hu => he.keeps_linesOk hu) hs h,
    fun _ hs => hs.two_bursts⟩

end Sys2Proof.Machine

/-! ## The proof of O60: the keeping (R13, R17, R39, R78) -/

namespace Sys2Proof.Machine

/-! ### Roles, whatever holds them -/

/-- The roles of the kept cells are in order (R13, R17, R39): a parcel cell's count is how often its channel's list names it, a cell that is
named is a parcel cell of that channel, the spares are the stock, each once, the assembly cells and the mark sheet are those held, and no
sheet of orders is left. -/
structure RolesOk (ρ : CellNo → Option Role) (names : LineNo → List CellNo) (stock : List CellNo) (asm : LineNo → Option CellNo)
    (sheet : Option CellNo) : Prop where
  refs : ∀ n ch r, ρ n = some (.parcel ch r) → r = (names ch).count n
  named : ∀ ch, ∀ n ∈ names ch, ∃ r, ρ n = some (.parcel ch r)
  spare : ∀ n, ρ n = some .spare ↔ n ∈ stock
  nodup : stock.Nodup
  assembly : ∀ n ch, ρ n = some (.assembly ch) ↔ asm ch = some n
  marks : ∀ n, ρ n = some .markSheet ↔ sheet = some n
  noSheet : ∀ n, ρ n ≠ some .sheet

section Roles

variable {ρ : CellNo → Option Role} {names : LineNo → List CellNo} {spare rest : List CellNo} {asm : LineNo → Option CellNo}
  {sheet : Option CellNo} {n c : CellNo} {ch : LineNo}

/-- The oldest spare cell opened as the mark sheet. -/
theorem RolesOk.openSheet (h : RolesOk ρ names (c :: rest) asm none) :
    RolesOk (Function.update ρ c (some .markSheet)) names rest asm (some c) := by
  obtain ⟨hrefs, hnamed, hspare, hnodup, hasm, hmarks, hnone⟩ := h
  have hc := (hspare c).mpr List.mem_cons_self
  constructor <;> grind [Function.update]

/-- The open mark sheet handed over. -/
theorem RolesOk.closeSheet (h : RolesOk ρ names spare asm (some c)) : RolesOk (Function.update ρ c none) names spare asm none := by
  obtain ⟨hrefs, hnamed, hspare, hnodup, hasm, hmarks, hnone⟩ := h
  have hc := (hmarks c).mpr rfl
  constructor <;> grind [Function.update]

/-- The oldest spare cell claimed for a parcel. -/
theorem RolesOk.claim (h : RolesOk ρ names (n :: rest) asm sheet) (hch : asm ch = none) :
    RolesOk (Function.update ρ n (some (.assembly ch))) names rest (Function.update asm ch (some n)) sheet := by
  obtain ⟨hrefs, hnamed, hspare, hnodup, hasm, hmarks, hnone⟩ := h
  have hc := (hspare n).mpr List.mem_cons_self
  constructor <;> grind [Function.update]

/-- An assembly cell given up. -/
theorem RolesOk.release (h : RolesOk ρ names spare asm sheet) (hch : asm ch = some n) :
    RolesOk (Function.update ρ n none) names spare (Function.update asm ch none) sheet := by
  obtain ⟨hrefs, hnamed, hspare, hnodup, hasm, hmarks, hnone⟩ := h
  have hc := (hasm n ch).mpr hch
  constructor <;> grind [Function.update]

/-- A new spare cell. -/
theorem RolesOk.join (h : RolesOk ρ names spare asm sheet) (hn : ρ n = none) :
    RolesOk (Function.update ρ n (some .spare)) names (spare ++ [n]) asm sheet := by
  obtain ⟨hrefs, hnamed, hspare, hnodup, hasm, hmarks, hnone⟩ := h
  constructor <;> grind [Function.update]

/-- An entry leaves its list, and its cell loses a reference (R39). -/
theorem RolesOk.drop (h : RolesOk ρ names spare asm sheet) {l : List CellNo} (hl : (names ch).Perm (n :: l)) {r : Nat}
    (hr : ρ n = some (.parcel ch r)) :
    RolesOk (Function.update ρ n (if r ≤ 1 then none else some (.parcel ch (r - 1)))) (Function.update names ch l) spare asm sheet := by
  obtain ⟨hrefs, hnamed, hspare, hnodup, hasm, hmarks, hnone⟩ := h
  have hcount : ∀ m, (names ch).count m = (n :: l).count m := fun m => hl.count_eq m
  have hmem : ∀ m, m ∈ names ch ↔ m = n ∨ m ∈ l := fun m => by rw [hl.mem_iff, List.mem_cons]
  constructor <;> grind [Function.update]

/-- A parcel's blocks placed, and its count set (R39). -/
theorem RolesOk.place (h : RolesOk ρ names spare asm sheet) (hn : ρ n = none) {l : List CellNo}
    (hother : ∀ m, m ≠ n → l.count m = (names ch).count m) :
    RolesOk (Function.update ρ n (if l.count n = 0 then none else some (.parcel ch (l.count n)))) (Function.update names ch l) spare asm sheet := by
  obtain ⟨hrefs, hnamed, hspare, hnodup, hasm, hmarks, hnone⟩ := h
  have hmem : ∀ m, m ≠ n → (m ∈ l ↔ m ∈ names ch) := fun m hm => by
    rw [← List.count_pos_iff, hother m hm, List.count_pos_iff]
  refine ⟨by grind [Function.update], fun m c hc => ?_, by grind [Function.update], hnodup, by grind [Function.update],
    by grind [Function.update], by grind [Function.update]⟩
  by_cases e : c = n
  · subst e
    by_cases hm : m = ch
    · subst hm
      rw [Function.update_self] at hc
      exact ⟨l.count c, by rw [Function.update_self, if_neg (List.count_pos_iff.mpr hc).ne']⟩
    · rw [Function.update_of_ne hm] at hc
      obtain ⟨r, hr⟩ := hnamed m c hc
      rw [hn] at hr
      cases hr
  · rw [Function.update_of_ne e]
    by_cases hm : m = ch
    · subst hm
      rw [Function.update_self] at hc
      exact hnamed m c ((hmem c e).mp hc)
    · rw [Function.update_of_ne hm] at hc
      exact hnamed m c hc

end Roles

/-! ### The keeping of a state -/

/-- The role of a kept cell; a cell in the course of its dispatch counts as not kept yet. -/
def State.roleBut (s : State) (x : Option CellNo) : CellNo → Option Role := fun n => if x = some n then none else s.roleAt n

/-- The cells that a channel's list names. -/
def State.names (s : State) : LineNo → List CellNo := fun ch => (s.chan.get ch).list.map Entry.cell

/-- The assembly cells. -/
def State.assemblies (s : State) : LineNo → Option CellNo := fun ch => (s.cap.get ch).assembly

/-- A channel and its capture side are open together, a closed one has no entry, and a capture side an assembly cell in PACKING alone. -/
def sidesOk (c : Channel) (k : Capture) : Prop :=
  (c.state = .closed ↔ k.state = .closed) ∧ (c.state = .closed → c.list = []) ∧ (k.state ≠ .packing → k.assembly = none)

/-- The keeping in order but for a cell in the course of its dispatch. -/
structure State.InOrder (s : State) (x : Option CellNo) : Prop where
  rising : tableRising s.ex.keeping = true
  keys : ∀ k ∈ s.ex.keeping, k.1 < 126
  roles : RolesOk (s.roleBut x) s.names s.ex.spare s.assemblies s.marks.sheet
  sides : ∀ ch, sidesOk (s.chan.get ch) (s.cap.get ch)

theorem State.roleBut_none (s : State) : s.roleBut none = s.roleAt := by
  funext n
  exact if_neg nofun

theorem State.refsAt_eq_some (s : State) (n : CellNo) (r : Nat) : s.refsAt n = some r ↔ ∃ ch, s.roleAt n = some (.parcel ch r) := by
  unfold State.refsAt
  split
  · next ch r' h => simp [h]
  · next h => simpa using fun ch => h ch r

theorem State.parcelChannel_eq_some (s : State) (n : CellNo) (ch : LineNo) :
    s.parcelChannel n = some ch ↔ ∃ r, s.roleAt n = some (.parcel ch r) := by
  unfold State.parcelChannel
  split
  · next ch' r h => simp [h]
  · next h => simpa using fun r => h ch r

/-- A cell that one channel's list alone names is named as often as that list names it. -/
theorem State.namings_eq (s : State) {n : CellNo} {ch : LineNo} (h : ∀ m, m ≠ ch → n ∉ s.names m) :
    s.namings n = (s.names ch).count n := by
  have hcount : ∀ m, (s.chan.get m).list.countP (fun e => e.cell == n) = (s.names m).count n := by
    intro m
    rw [State.names, List.count, List.countP_map]
    rfl
  unfold State.namings
  rw [← List.ofFn_eq_map, List.sum_ofFn, Finset.sum_eq_single ch]
  · exact hcount ch
  · intro m _ hm
    rw [hcount m]
    exact List.count_eq_zero_of_not_mem (h m hm)
  · exact fun hn => absurd (Finset.mem_univ ch) hn

theorem State.keepingOk_iff (s : State) : s.keepingOk ↔ s.InOrder none := by
  have hnames : ∀ (ch : LineNo) (n : CellNo), n ∈ s.names ch ↔ ∃ e ∈ (s.chan.get ch).list, e.cell = n := fun ch n => List.mem_map
  constructor
  · rintro ⟨hrising, hkeys, hrefs, hlists, hspare, hnodup, hasm, hmarks, hnone, hsides⟩
    have hnamed : ∀ ch, ∀ n ∈ s.names ch, ∃ r, s.roleAt n = some (.parcel ch r) := by
      intro ch n hn
      obtain ⟨e, he, rfl⟩ := (hnames ch n).mp hn
      exact (s.parcelChannel_eq_some _ _).mp (hlists ch e he)
    refine ⟨hrising, hkeys, ?_, hsides⟩
    rw [State.roleBut_none]
    refine ⟨fun n ch r hr => ?_, hnamed, hspare, hnodup, hasm, hmarks, hnone⟩
    have hone : ∀ m, m ≠ ch → n ∉ s.names m := by
      intro m hm hn
      obtain ⟨r', hr'⟩ := hnamed m n hn
      rw [hr] at hr'
      cases hr'
      exact hm rfl
    have hsome := (s.refsAt_eq_some n r).mpr ⟨ch, hr⟩
    rcases hrefs n with h | h
    · rw [hsome] at h
      cases h
    · rw [hsome, s.namings_eq hone] at h
      exact Option.some.inj h
  · rintro ⟨hrising, hkeys, hroles, hsides⟩
    rw [State.roleBut_none] at hroles
    refine ⟨hrising, hkeys, fun n => ?_, fun ch e he => ?_, hroles.spare, hroles.nodup, hroles.assembly, hroles.marks, hroles.noSheet, hsides⟩
    · cases hr : s.refsAt n with
      | none => exact .inl rfl
      | some r =>
        obtain ⟨ch, hrole⟩ := (s.refsAt_eq_some n r).mp hr
        have hone : ∀ m, m ≠ ch → n ∉ s.names m := by
          intro m hm hn
          obtain ⟨r', hr'⟩ := hroles.named m n hn
          rw [hrole] at hr'
          cases hr'
          exact hm rfl
        rw [s.namings_eq hone, hroles.refs n ch r hrole]
        exact .inr rfl
    · exact (s.parcelChannel_eq_some _ _).mpr (hroles.named ch e.cell ((hnames ch _).mpr ⟨e, he, rfl⟩))

section Keeping

variable {s t : State} {x : Option CellNo} {n : CellNo} {ch : LineNo}

/-! ### Roles after an operation -/

theorem State.roleBut_congr (h : t.ex.keeping = s.ex.keeping) : t.roleBut x = s.roleBut x := by
  unfold State.roleBut State.roleAt State.keptAt
  rw [h]

theorem State.roleBut_setKept (k : Kept) (hx : x ≠ some n) :
    (s.setKept n k).roleBut x = Function.update (s.roleBut x) n (some k.role) := by
  funext m
  by_cases e : m = n
  · subst e
    simp [State.roleBut, State.roleAt, State.keptAt_setKept_same, hx]
  · have hv : m.val ≠ n.val := fun hv => e (Fin.ext hv)
    simp [State.roleBut, State.roleAt, State.keptAt_setKept_other _ _ _ hv, e]

/-- A cell in the course of its dispatch gets its role for good. -/
theorem State.roleBut_none_setKept (k : Kept) :
    (s.setKept n k).roleBut none = Function.update (s.roleBut (some n)) n (some k.role) := by
  funext m
  by_cases e : m = n
  · subst e
    simp [State.roleBut, State.roleAt, State.keptAt_setKept_same]
  · have hv : m.val ≠ n.val := fun hv => e (Fin.ext hv)
    simp [State.roleBut, State.roleAt, State.keptAt_setKept_other _ _ _ hv, e, Ne.symm e]

/-- Whatever role it has meanwhile does not matter. -/
theorem State.roleBut_some_setKept (k : Kept) : (s.setKept n k).roleBut (some n) = s.roleBut (some n) := by
  funext m
  by_cases e : m = n
  · simp [State.roleBut, e]
  · have hv : m.val ≠ n.val := fun hv => e (Fin.ext hv)
    simp [State.roleBut, State.roleAt, State.keptAt_setKept_other _ _ _ hv]

theorem State.roleBut_handOver (b : Byte) (hk : tableRising s.ex.keeping = true) :
    (s.handOver n b).roleBut x = Function.update (s.roleBut x) n none := by
  funext m
  by_cases e : m = n
  · subst e
    simp [State.roleBut, State.roleAt, State.keptAt_handOver _ _ _ _ hk]
  · have hv : m.val ≠ n.val := fun hv => e (Fin.ext hv)
    simp [State.roleBut, State.roleAt, State.keptAt_handOver _ _ _ _ hk, e, hv]

/-- A cell handed over in the course of its dispatch. -/
theorem State.roleBut_none_handOver (b : Byte) (hk : tableRising s.ex.keeping = true) :
    (s.handOver n b).roleBut none = s.roleBut (some n) := by
  rw [State.roleBut_handOver b hk]
  funext m
  by_cases e : m = n
  · subst e
    simp [State.roleBut]
  · simp [State.roleBut, e, Ne.symm e]

/-! ### The table -/

theorem State.InOrder.setKept_table (h : s.InOrder x) (k : Kept) : tableRising (s.setKept n k).ex.keeping = true ∧
    ∀ e ∈ (s.setKept n k).ex.keeping, e.1 < 126 := by
  refine ⟨tableRising_put _ _ h.rising, fun e he => ?_⟩
  rcases mem_tablePut he with rfl | he
  · exact n.isLt
  · exact h.keys e he

theorem State.InOrder.handOver_table (h : s.InOrder x) (b : Byte) : tableRising (s.handOver n b).ex.keeping = true ∧
    ∀ e ∈ (s.handOver n b).ex.keeping, e.1 < 126 :=
  ⟨tableRising_drop _ h.rising, fun e he => h.keys e ((tableDrop_sublist _ _).mem he)⟩

/-- What matters is the keeping, the stock, the open sheet, the cells that lists name, the assembly cells, and which sides are open. -/
theorem State.InOrder.congr (h : s.InOrder x) (hkeep : t.ex.keeping = s.ex.keeping) (hspare : t.ex.spare = s.ex.spare)
    (hsheet : t.marks.sheet = s.marks.sheet) (hnames : ∀ ch, t.names ch = s.names ch) (hasm : ∀ ch, t.assemblies ch = s.assemblies ch)
    (hsides : ∀ ch, sidesOk (t.chan.get ch) (t.cap.get ch)) : t.InOrder x where
  rising := hkeep ▸ h.rising
  keys := hkeep ▸ h.keys
  roles := by
    rw [State.roleBut_congr hkeep, hspare, hsheet, funext hnames, funext hasm]
    exact h.roles
  sides := hsides

/-- The sides as they were. -/
theorem State.InOrder.of_fields (h : s.InOrder x) (hkeep : t.ex.keeping = s.ex.keeping) (hspare : t.ex.spare = s.ex.spare)
    (hsheet : t.marks.sheet = s.marks.sheet) (hchan : t.chan = s.chan) (hcap : t.cap = s.cap) : t.InOrder x :=
  h.congr hkeep hspare hsheet (fun _ => by rw [State.names, State.names, hchan]) (fun _ => by rw [State.assemblies, State.assemblies, hcap])
    (fun ch => by rw [hchan, hcap]; exact h.sides ch)

/-! ### Marks -/

theorem State.InOrder.closeSheet (h : s.InOrder x) : s.closeSheet.InOrder x := by
  cases hc : s.marks.sheet with
  | none => rwa [State.closeSheet_none hc]
  | some c =>
    obtain ⟨hrising, hkeys⟩ := h.handOver_table (n := c) stampOutMarks
    have hroles := h.roles
    rw [hc] at hroles
    have hρ := State.roleBut_handOver (s := s) (n := c) (x := x) stampOutMarks h.rising
    rw [State.closeSheet_some hc]
    refine ⟨hrising, hkeys, ?_, h.sides⟩
    have hclosed := hroles.closeSheet
    rw [← hρ] at hclosed
    exact hclosed

theorem State.InOrder.writeMark (m : Mark) (h : s.InOrder x) : (s.writeMark m).InOrder x := by
  cases hc : s.marks.sheet with
  | none => rwa [State.writeMark_none m hc]
  | some c =>
    have hrecord : (s.recordMark c m).InOrder x := h.of_fields rfl rfl rfl rfl rfl
    rw [State.writeMark_some m hc]
    split
    · exact hrecord.closeSheet
    · exact hrecord

/-- A spare cell is none in the course of its dispatch. -/
theorem State.InOrder.ne_of_role (h : s.InOrder x) {r : Role} (hr : s.roleBut x n = some r) : x ≠ some n := by
  rintro rfl
  simp [State.roleBut] at hr

theorem State.InOrder.openSheet (hnone : s.marks.sheet = none) (ho : s.openSheet = some t) (h : s.InOrder x) : t.InOrder x := by
  obtain ⟨c, rest, hs, rfl⟩ := State.openSheet_eq ho
  have hroles := h.roles
  rw [hs, hnone] at hroles
  have hx : x ≠ some c := h.ne_of_role ((hroles.spare c).mpr List.mem_cons_self)
  obtain ⟨hrising, hkeys⟩ := h.setKept_table (n := c) { role := .markSheet, clash := ((s.keptAt c.val).map Kept.clash).getD false }
  have hopened := hroles.openSheet
  rw [← State.roleBut_setKept { role := .markSheet, clash := ((s.keptAt c.val).map Kept.clash).getD false } hx] at hopened
  exact ⟨hrising, hkeys, hopened, h.sides⟩

theorem State.InOrder.giveMark (m : Mark) (h : s.InOrder x) : (s.giveMark m).InOrder x :=
  State.giveMark_keeps (P := fun u => u.InOrder x) (fun _ m hu => hu.writeMark m) (fun _ _ hn ho hu => hu.openSheet hn ho)
    (fun _ _ _ _ _ hu => hu.of_fields rfl rfl rfl rfl rfl) s m h

theorem State.InOrder.markBoundary (h : s.InOrder x) : s.markBoundary.InOrder x :=
  State.markBoundary_keeps (P := fun u => u.InOrder x) (fun _ m hu => hu.writeMark m) (fun _ _ hn ho hu => hu.openSheet hn ho)
    (fun _ _ _ _ _ hu => hu.of_fields rfl rfl rfl rfl rfl) (fun _ hu => hu.closeSheet) s h

theorem State.InOrder.lineStep (hl : s.LineStep t) (h : s.InOrder x) : t.InOrder x :=
  hl.keeps (P := fun u => u.InOrder x) (fun _ m hu => hu.giveMark m) (fun _ _ hchan hcap _ _ hu => hu.of_fields rfl rfl rfl hchan hcap) h

/-! ### References -/

theorem State.names_setChan (s : State) (ch : LineNo) (c : Channel) :
    (s.setChan ch c).names = Function.update s.names ch (c.list.map Entry.cell) := by
  funext m
  by_cases e : m = ch <;> simp [State.names, Four.get_set, e]

/-- A channel record replaced by one of the same cells. -/
theorem State.InOrder.setChan (h : s.InOrder x) {c : Channel} (hl : c.list = (s.chan.get ch).list)
    (hs : c.state = .closed ↔ (s.chan.get ch).state = .closed) : (s.setChan ch c).InOrder x := by
  refine h.congr rfl rfl rfl (fun m => ?_) (fun _ => rfl) fun m => ?_
  · by_cases e : m = ch <;> simp [State.names, Four.get_set, e, hl]
  · by_cases e : m = ch
    · subst e
      obtain ⟨hopen, hempty, hasm⟩ := h.sides m
      rw [State.setChan_chan, Four.get_set_same]
      exact ⟨hs.trans hopen, fun hc => hl.trans (hempty (hs.mp hc)), hasm⟩
    · rw [State.setChan_chan, Four.get_set_other _ _ e]
      exact h.sides m

/-- An entry leaves the list, and its cell loses a reference (R39). -/
theorem State.InOrder.dropEntry (h : s.InOrder x) {c : Channel}
    (hl : ((s.chan.get ch).list.map Entry.cell).Perm (n :: c.list.map Entry.cell)) (hside : sidesOk c (s.cap.get ch)) :
    ((s.setChan ch c).dropRef n).InOrder x := by
  obtain ⟨r, hr⟩ := h.roles.named ch n (hl.mem_iff.mpr List.mem_cons_self)
  have hx : x ≠ some n := h.ne_of_role hr
  have hkept : ∃ cl, s.keptAt n.val = some { role := .parcel ch r, clash := cl } := by
    rw [State.roleBut, if_neg hx] at hr
    obtain ⟨k, hk, hrole⟩ := Option.map_eq_some_iff.mp hr
    exact ⟨k.clash, by rw [hk, ← hrole]⟩
  obtain ⟨cl, hkept⟩ := hkept
  have hroles := h.roles.drop hl hr
  rw [← State.names_setChan] at hroles
  have hsides : ∀ m, sidesOk ((s.setChan ch c).chan.get m) (s.cap.get m) := by
    intro m
    rw [State.setChan_chan, Four.get_set]
    split
    · next e => rwa [e]
    · exact h.sides m
  have hdrop : (s.setChan ch c).dropRef n =
      if r ≤ 1 then (s.setChan ch c).handOver n stampReturned else (s.setChan ch c).setRole n (.parcel ch (r - 1)) := by
    unfold State.dropRef
    rw [show (s.setChan ch c).keptAt n.val = some { role := .parcel ch r, clash := cl } from hkept]
  rw [hdrop]
  by_cases hle : r ≤ 1
  · rw [if_pos hle] at hroles ⊢
    obtain ⟨hrising, hkeys⟩ := h.handOver_table (n := n) stampReturned
    refine ⟨hrising, hkeys, ?_, hsides⟩
    rw [State.roleBut_handOver (s := s.setChan ch c) stampReturned h.rising]
    exact hroles
  · rw [if_neg hle] at hroles ⊢
    obtain ⟨hrising, hkeys⟩ := h.setKept_table (n := n) { role := .parcel ch (r - 1), clash := cl }
    unfold State.setRole
    rw [show (s.setChan ch c).keptAt n.val = some { role := .parcel ch r, clash := cl } from hkept]
    refine ⟨hrising, hkeys, ?_, hsides⟩
    rw [State.roleBut_setKept (s := s.setChan ch c) _ hx]
    exact hroles

theorem State.setChan_setChan (s : State) (ch : LineNo) (c c' : Channel) : (s.setChan ch c).setChan ch c' = s.setChan ch c' := by
  simp [State.setChan]

theorem State.InOrder.flushed (h : s.InOrder x) : (s.flushed ch).InOrder x := by
  have hall : ∀ (es : List Entry) (u : State), u.InOrder x → (u.chan.get ch).list = es →
      ((u.setChan ch { u.chan.get ch with list := [] }).dropRefs es).InOrder x := by
    intro es
    induction es with
    | nil => exact fun u hu hl => hu.setChan hl.symm Iff.rfl
    | cons e es ih =>
      intro u hu hl
      obtain ⟨hopen, hempty, hasm⟩ := hu.sides ch
      have hdropped : ((u.setChan ch { u.chan.get ch with list := es }).dropRef e.cell).InOrder x := by
        refine hu.dropEntry (by rw [hl, List.map_cons]) ⟨hopen, fun hc => ?_, hasm⟩
        have := hempty hc
        rw [hl] at this
        cases this
      have hrest := ih _ hdropped (by simp)
      rw [State.dropRef_setChan] at hrest
      have hsame : (((u.dropRef e.cell).setChan ch { u.chan.get ch with list := es }).setChan ch
          { ((u.dropRef e.cell).setChan ch { u.chan.get ch with list := es }).chan.get ch with list := [] }) =
          (u.setChan ch { u.chan.get ch with list := [] }).dropRef e.cell := by
        rw [State.setChan_setChan, State.dropRef_setChan]
        simp
      rw [hsame] at hrest
      exact hrest
  exact hall _ s h rfl

/-! ### Frame boundaries -/

theorem perm_of_find?_eraseP {p : Entry → Bool} {l : List Entry} {e : Entry} (h : l.find? p = some e) : l.Perm (e :: l.eraseP p) := by
  obtain ⟨hp, as, bs, rfl, has⟩ := List.find?_eq_some_iff_append.mp h
  rw [List.eraseP_append_right _ (by simpa using has), List.eraseP_cons_of_pos hp]
  exact List.perm_middle

theorem State.InOrder.handFrames (out : Frame) (far : Option Frame) (h : s.InOrder x) : (s.handFrames ch out far).InOrder x :=
  h.of_fields (by simp) (by simp) (by simp) (by simp) (by simp)

/-- The entry at the cursor leaves the list of an open channel. -/
theorem State.InOrder.takeEntry (h : s.InOrder x) (hopen : (s.chan.get ch).state ≠ .closed) {e : Entry} {c : Channel}
    (hf : (s.chan.get ch).list.find? (·.ts == (s.chan.get ch).cursor) = some e)
    (hl : c.list = (s.chan.get ch).list.eraseP (·.ts == (s.chan.get ch).cursor)) (hs : c.state ≠ .closed) :
    ((s.setChan ch c).dropRef e.cell).InOrder x := by
  obtain ⟨hsides, -, hasm⟩ := h.sides ch
  refine h.dropEntry ?_ ⟨iff_of_false hs fun hc => hopen (hsides.mpr hc), fun hc => absurd hc hs, hasm⟩
  rw [hl]
  exact (perm_of_find?_eraseP hf).map Entry.cell

theorem State.InOrder.trimStep (h : s.InOrder x) (hopen : (s.chan.get ch).state ≠ .closed) : (s.trimStep ch).InOrder x := by
  unfold State.trimStep
  dsimp only
  split
  · exact h.setChan (by rfl) Iff.rfl
  · next e hf => exact h.takeEntry hopen hf rfl hopen

theorem Channel.settle_ne_closed {c : Channel} (h : c.state ≠ .closed) : c.settle.state ≠ .closed := by
  rw [Channel.settle_state]
  split
  · nofun
  · exact h

theorem State.InOrder.ordinaryBoundary (h : s.InOrder x) (hopen : (s.chan.get ch).state ≠ .closed) : (s.ordinaryBoundary ch).InOrder x := by
  have hsettled : ∀ c : Channel, c.state = (s.chan.get ch).state → c.settle.state ≠ .closed := fun c hc =>
    Channel.settle_ne_closed (hc ▸ hopen)
  have hkeep : ∀ c : Channel, c.list = (s.chan.get ch).list → c.state = (s.chan.get ch).state → (s.setChan ch c.settle).InOrder x :=
    fun c hl hc => h.setChan (by rw [Channel.settle_list, hl]) (iff_of_false (hsettled c hc) hopen)
  unfold State.ordinaryBoundary
  dsimp only
  split
  · next e hf => exact State.InOrder.handFrames _ _ (h.takeEntry hopen hf (by exact Channel.settle_list _) (hsettled _ (by rfl)))
  · split
    · exact State.InOrder.handFrames _ _ (hkeep _ (by rfl) (by rfl))
    · exact State.InOrder.handFrames _ _ (hkeep _ (by rfl) (by rfl))

theorem State.InOrder.playBoundary (ch : LineNo) (h : s.InOrder x) : (s.playBoundary ch).InOrder x := by
  unfold State.playBoundary
  dsimp only
  split
  · exact h
  · exact h.handFrames _ _
  · next hopen _ =>
    split
    · exact (h.setChan (c := { s.chan.get ch with hold := (s.chan.get ch).hold - 1 }) rfl Iff.rfl).handFrames _ _
    · split
      · exact (h.trimStep hopen).ordinaryBoundary (by rw [(s.trimStep_chan_get ch).1]; exact hopen)
      · exact h.ordinaryBoundary hopen

/-! ### Modes and triggers -/

theorem State.InOrder.enterSteady (explicit : Option Nat) (cause : Half) (h : s.InOrder x) :
    (s.enterSteady ch explicit cause).1.InOrder x :=
  (h.setChan (c := { s.chan.get ch with
    steady := some (steadyFramesOf (s.chan.get ch).target (s.chan.get ch).params.steadyMargin explicit).1
    hold := (s.chan.get ch).hold + if (s.chan.get ch).anchored then
      (steadyFramesOf (s.chan.get ch).target (s.chan.get ch).params.steadyMargin explicit).1 - (s.chan.get ch).target else 0
    mode := .steady, excess := 0, trim := false }) rfl Iff.rfl).giveMark _

theorem State.InOrder.triggerEvent (cause : TriggerCause) (h : s.InOrder x) : (s.triggerEvent ch cause).InOrder x := by
  have hspent : ∀ v, (s.setVerdict ch v).InOrder x := fun _ => h.of_fields rfl rfl rfl rfl rfl
  unfold State.triggerEvent State.takeTrigger
  dsimp only
  split
  · split
    · exact (hspent _).enterSteady none _
    · exact hspent _
  · exact h

/-! ### Capture -/

/-- A capture record replaced, its assembly cell as it was. -/
theorem State.InOrder.setCap (h : s.InOrder x) {c : Capture} (hasm : c.assembly = (s.cap.get ch).assembly)
    (hs : c.state = .closed ↔ (s.cap.get ch).state = .closed) (hp : c.state ≠ .packing → c.assembly = none) : (s.setCap ch c).InOrder x := by
  refine h.congr rfl rfl rfl (fun _ => rfl) (fun m => ?_) fun m => ?_
  · by_cases e : m = ch <;> simp [State.assemblies, Four.get_set, e, hasm]
  · by_cases e : m = ch
    · subst e
      obtain ⟨hopen, hempty, -⟩ := h.sides m
      rw [State.setCap_cap, Four.get_set_same]
      exact ⟨hopen.trans hs.symm, hempty, hp⟩
    · rw [State.setCap_cap, Four.get_set_other _ _ e]
      exact h.sides m

theorem State.assemblies_setCap (s : State) (ch : LineNo) (c : Capture) :
    (s.setCap ch c).assemblies = Function.update s.assemblies ch c.assembly := by
  funext m
  by_cases e : m = ch <;> simp [State.assemblies, Four.get_set, e]

theorem State.InOrder.bump (k : Counter) (h : s.InOrder x) : (s.bump ch k).InOrder x := h.setChan rfl Iff.rfl

theorem State.InOrder.starvePeriod (h : s.InOrder x) (ha : (s.cap.get ch).assembly = none) :
    (s.starvePeriod ch).InOrder x := by
  have hset : ((s.setCap ch { s.cap.get ch with assembly := none, starving := true }).bump ch .starvedPeriods).InOrder x :=
    (h.setCap (c := { s.cap.get ch with assembly := none, starving := true }) ha.symm Iff.rfl fun _ => rfl).bump _
  unfold State.starvePeriod
  dsimp only
  split
  · exact hset
  · exact hset.giveMark _

/-- A period starts on a side that is open and packs none (R86 to R88). -/
theorem State.InOrder.startPeriod (h : s.InOrder x) (mode : Mode) (hopen : (s.cap.get ch).state ≠ .closed)
    (hidle : (s.cap.get ch).state ≠ .packing) :
    (s.startPeriod ch mode).InOrder x ∧ ((s.startPeriod ch mode).cap.get ch).state = .packing := by
  obtain ⟨hsides, hempty, hasm⟩ := h.sides ch
  have hnone : (s.cap.get ch).assembly = none := hasm hidle
  have hne : (s.chan.get ch).state ≠ .closed := fun hc => hopen (hsides.mp hc)
  rcases s.claim_or_starve with hstarve | ⟨n, rest, hs, hr⟩
  · rw [State.startPeriod_starved mode hstarve]
    have hstarted : (s.setCap ch ((s.cap.get ch).started mode)).InOrder x :=
      h.setCap rfl (iff_of_false nofun hopen) fun _ => hnone
    refine ⟨hstarted.starvePeriod (by simpa [Capture.started] using hnone), ?_⟩
    unfold State.starvePeriod
    dsimp only
    split <;> simp [State.bump, State.giveLineMark, Capture.started]
  · rw [State.startPeriod_claimed mode hs hr, State.putRedundant_eq]
    refine ⟨?_, by simp [Capture.started]⟩
    have hroles := h.roles
    rw [hs] at hroles
    have hx : x ≠ some n := h.ne_of_role ((hroles.spare n).mpr List.mem_cons_self)
    obtain ⟨hrising, hkeys⟩ := h.setKept_table (n := n) { role := .assembly ch, clash := ((s.keptAt n.val).map Kept.clash).getD false }
    have hclaimed := hroles.claim (ch := ch) hnone
    rw [← State.roleBut_setKept { role := .assembly ch, clash := ((s.keptAt n.val).map Kept.clash).getD false } hx] at hclaimed
    refine ⟨hrising, hkeys, ?_, fun m => ?_⟩
    · rw [← State.assemblies_setCap s ch { (s.cap.get ch).started mode with
          assembly := some n, starving := false
          periodQ := periodRedundancy mode (s.chan.get ch).params.redundancy (s.cap.get ch).history }] at hclaimed
      exact hclaimed
    · by_cases e : m = ch
      · subst e
        simp only [State.setCap_cap, Four.get_set_same]
        exact ⟨iff_of_false hne nofun, fun hc => absurd hc hne, fun hp => absurd rfl hp⟩
      · simp only [State.setCap_cap, Four.get_set_other _ _ e]
        exact h.sides m

theorem stateAfterPeriod_ne (mode : Mode) (i hang : Nat) : stateAfterPeriod mode i hang ≠ .packing ∧ stateAfterPeriod mode i hang ≠ .closed := by
  unfold stateAfterPeriod
  split
  · exact ⟨nofun, nofun⟩
  · split <;> exact ⟨nofun, nofun⟩

/-- An assembly cell handed over, its capture record replaced by one without. -/
theorem State.InOrder.release (h : s.InOrder x) (ha : (s.cap.get ch).assembly = some n) {c : Capture} (hc : c.assembly = none)
    (hs : c.state = .closed ↔ (s.cap.get ch).state = .closed) (b : Byte) : ((s.setCap ch c).handOver n b).InOrder x := by
  obtain ⟨hrising, hkeys⟩ := h.handOver_table (n := n) b
  have hreleased := h.roles.release (ch := ch) (n := n) ha
  rw [← State.roleBut_handOver b h.rising, ← hc, ← State.assemblies_setCap] at hreleased
  refine ⟨hrising, hkeys, hreleased, fun m => ?_⟩
  obtain ⟨hopen, hempty, hasm⟩ := h.sides m
  by_cases e : m = ch
  · subst e
    simp only [State.handOver_cap, State.handOver_chan, State.setCap_cap, State.setCap_chan, Four.get_set_same]
    exact ⟨hopen.trans hs.symm, hempty, fun _ => hc⟩
  · simp only [State.handOver_cap, State.handOver_chan, State.setCap_cap, State.setCap_chan, Four.get_set_other _ _ e]
    exact ⟨hopen, hempty, hasm⟩

theorem State.InOrder.sendParcel (h : s.InOrder x) (ha : (s.cap.get ch).assembly = some n) : (s.sendParcel ch n).InOrder x := by
  have hput : (s.putCell n 0 (outboundHeader ch (s.chan.get ch).params (s.cap.get ch))).InOrder x := h.of_fields rfl rfl rfl rfl rfl
  exact State.InOrder.bump _ (hput.release (c := { s.cap.get ch with
    nextSeq := (s.cap.get ch).nextSeq + 1, spurt := false, assembly := none }) ha rfl Iff.rfl stampOutParcel)

/-- A period in PACKING ends: its parcel, if it holds a cell, is handed over (R90, R91). -/
theorem State.InOrder.endPeriod (h : s.InOrder x) (hs : (s.cap.get ch).state = .packing) : (s.endPeriod ch).InOrder x := by
  have hheld : (s.sendHeld ch).InOrder x ∧ ((s.sendHeld ch).cap.get ch).assembly = none ∧ ((s.sendHeld ch).cap.get ch).state = .packing := by
    unfold State.sendHeld
    split
    · next n ha => exact ⟨h.sendParcel ha, by simp [State.sendParcel, State.bump], by simpa [State.sendParcel, State.bump] using hs⟩
    · next ha => exact ⟨h, ha, hs⟩
  obtain ⟨hheld, hnone, hpack⟩ := hheld
  rw [State.endPeriod_eq]
  exact hheld.setCap rfl (iff_of_false (stateAfterPeriod_ne _ _ _).2 (by rw [hpack]; nofun)) fun _ => hnone

theorem State.InOrder.joinPeriod (f : Frame) (h : s.InOrder x) (hs : (s.cap.get ch).state = .packing) : (s.joinPeriod ch f).InOrder x := by
  have hcoded : s.codeFrame ch f = { s with mem := (s.codeFrame ch f).mem } := by
    unfold State.codeFrame
    split
    · rfl
    · rfl
  have hset : (({ s with mem := (s.codeFrame ch f).mem } : State).setCap ch { s.cap.get ch with frames := (s.cap.get ch).frames + 1 }).InOrder x :=
    (h.setCap (c := { s.cap.get ch with frames := (s.cap.get ch).frames + 1 }) rfl Iff.rfl (h.sides ch).2.2).of_fields rfl rfl rfl rfl rfl
  rw [State.joinPeriod_eq, hcoded]
  split
  · exact hset.endPeriod (by simpa using hs)
  · exact hset

theorem State.InOrder.captureStep (h : s.InOrder x) : (s.captureStep ch).InOrder x := by
  have hperiod : ∀ (u : State) (mode : Mode) (active : Bool) (f : Frame), u.InOrder x → (u.periodStep ch mode active f).InOrder x := by
    intro u mode active f hu
    have hstart : (u.cap.get ch).state ≠ .closed → (u.cap.get ch).state ≠ .packing → ((u.startPeriod ch mode).joinPeriod ch f).InOrder x := by
      intro hopen hidle
      obtain ⟨hstarted, hpack⟩ := hu.startPeriod mode hopen hidle
      exact hstarted.joinPeriod f hpack
    unfold State.periodStep
    split
    · exact hu
    · next hs => exact hu.joinPeriod f hs
    · next hs => exact hstart (by rw [hs]; nofun) (by rw [hs]; nofun)
    · next hs =>
      split
      · exact hu
      · exact hstart (by rw [hs]; nofun) (by rw [hs]; nofun)
  have hjudged := h.setCap (ch := ch) (c := (s.cap.get ch).judged (s.frameMode ch)
    (frameActive (s.chan.get ch).params.vadThreshold (s.captureFrame ch (s.frameMode ch)))) rfl Iff.rfl (h.sides ch).2.2
  have hstep := hperiod _ (s.frameMode ch) (frameActive (s.chan.get ch).params.vadThreshold (s.captureFrame ch (s.frameMode ch)))
    (s.captureFrame ch (s.frameMode ch)) hjudged
  rw [State.captureStep_eq]
  exact hstep.setCap rfl Iff.rfl (hstep.sides ch).2.2

theorem State.InOrder.partEvent (e : PartEvent) (h : s.InOrder x) : (s.partEvent e).InOrder x :=
  State.partEvent_keeps (P := fun u => u.InOrder x) (fun _ hl hs => hs.lineStep hl) (fun _ hs => hs.of_fields rfl rfl rfl rfl rfl)
    (fun _ ch hu => hu.playBoundary ch) (fun _ _ _ hu => hu.captureStep) (fun _ cause hs => hs.triggerEvent cause)
    (fun _ hu => hu.markBoundary) e h

/-! ### Orders -/

/-- Both sides of a channel replaced, the list and the assembly cell as they were. -/
theorem State.InOrder.setSides (h : s.InOrder x) {c : Channel} {k : Capture} (hl : c.list = (s.chan.get ch).list)
    (hk : k.assembly = (s.cap.get ch).assembly) (hside : sidesOk c k) : ((s.setChan ch c).setCap ch k).InOrder x := by
  refine h.congr rfl rfl rfl (fun m => ?_) (fun m => ?_) fun m => ?_
  · by_cases e : m = ch <;> simp [State.names, Four.get_set, e, hl]
  · by_cases e : m = ch <;> simp [State.assemblies, Four.get_set, e, hk]
  · by_cases e : m = ch
    · simpa [e] using hside
    · simpa [Four.get_set, e] using h.sides m

theorem State.closeCapture_none {s : State} (h : (s.cap.get ch).assembly = none) : s.closeCapture ch = s.setCap ch { s.cap.get ch with
    state := .closed, assembly := none, spurt := false, starving := false, history := [] } := by
  simp only [State.closeCapture, h]

theorem State.closeCapture_some {s : State} (h : (s.cap.get ch).assembly = some n) :
    s.closeCapture ch = (s.handOver n stampReturned).setCap ch { s.cap.get ch with
      state := .closed, assembly := none, spurt := false, starving := false, history := [] } := by
  simp only [State.closeCapture, h]
  rfl

theorem State.InOrder.closeChannel (h : s.InOrder x) : (s.closeChannel ch).InOrder x := by
  have hflushed := h.flushed (ch := ch)
  have hempty : ((s.flushed ch).chan.get ch).list = [] := by simp
  have hboth : ∀ u : State, u.InOrder x → (u.cap.get ch).assembly = none → u.chan = (s.flushed ch).chan →
      ∀ k : Capture, k.state = .closed → k.assembly = none →
      ((u.setChan ch { (s.flushed ch).chan.get ch with state := .closed, hold := 0, excess := 0, trim := false }).setCap ch k).InOrder x :=
    fun u hu ha hc k hs hk => hu.setSides (by rw [hc]) (hk.trans ha.symm) ⟨iff_of_true rfl hs, fun _ => hempty, fun _ => hk⟩
  rw [State.closeChannel_eq]
  cases ha : ((s.flushed ch).cap.get ch).assembly with
  | none =>
    rw [State.closeCapture_none ha]
    exact hboth _ hflushed ha rfl _ rfl rfl
  | some n =>
    have hreleased := hflushed.release ha (c := { (s.flushed ch).cap.get ch with assembly := none }) rfl Iff.rfl stampReturned
    rw [State.closeCapture_some ha]
    refine (hboth _ hreleased (by simp) rfl { (s.flushed ch).cap.get ch with
      state := .closed, assembly := none, spurt := false, starving := false, history := [] } rfl rfl).of_fields rfl rfl rfl rfl ?_
    simp

theorem State.InOrder.openChannel (h : s.InOrder x) (hc : (s.chan.get ch).state = .closed) (p : OpenParams) : (s.openChannel ch p).InOrder x := by
  obtain ⟨hsides, hempty, hasm⟩ := h.sides ch
  have hopened := h.setSides (ch := ch) (c := Channel.opened p) (k := (s.cap.get ch).opened p) (hempty hc).symm
    (hasm (by rw [hsides.mp hc]; nofun)).symm ⟨iff_of_false nofun nofun, nofun, fun _ => rfl⟩
  exact hopened.of_fields rfl rfl rfl rfl rfl

theorem State.InOrder.reapplySteady (explicit : Option Nat) (h : s.InOrder x) : (s.reapplySteady ch explicit).1.InOrder x := by
  unfold State.reapplySteady
  dsimp only
  split
  · exact h.setChan (by rfl) Iff.rfl
  · split
    · exact h
    · exact h

theorem State.InOrder.returnToSpeech (h : s.InOrder x) : (s.returnToSpeech ch).InOrder x :=
  State.InOrder.setChan (h.giveMark _) (by rfl) Iff.rfl

theorem State.InOrder.orderRun {m : CellNo} {count : Nat} (ho : s.OrderRun m count t) (h : s.InOrder x) : t.InOrder x := by
  rcases ho.lineStep_or_channelRun with ho | ho
  · exact h.lineStep ho
  · cases ho with
    | channelOpen ch raw hc => exact h.openChannel hc raw.inRange
    | channelClose ch hc => exact h.closeChannel
    | enterSteady ch explicit hc hm => exact h.enterSteady explicit _
    | reapplySteady ch explicit hc hm => exact h.reapplySteady explicit
    | returnToSpeech ch hc hm => exact h.returnToSpeech
    | snapshot ch off clear hlow hhigh =>
      have hput : (s.putCell m off (s.chan.get ch).snapshot).InOrder x := h.of_fields rfl rfl rfl rfl rfl
      cases clear with
      | true => exact hput.setChan (by rfl) Iff.rfl
      | false => exact hput
    | reserve v => exact h.of_fields rfl rfl rfl rfl rfl

/-! ### A cell in the course of its dispatch (R10, R13, R17) -/

/-- A cell handed over ends its dispatch. -/
theorem State.InOrder.handOver_dispatched (h : s.InOrder (some n)) (b : Byte) : (s.handOver n b).InOrder none := by
  obtain ⟨hrising, hkeys⟩ := h.handOver_table (n := n) b
  refine ⟨hrising, hkeys, ?_, h.sides⟩
  rw [State.roleBut_none_handOver b h.rising]
  exact h.roles

theorem State.InOrder.refuseCell (h : s.InOrder (some n)) (b : Byte) : (s.refuseCell n b).InOrder none :=
  State.InOrder.handOver_dispatched (s := s.putCell n 16 [b]) (h.of_fields rfl rfl rfl rfl rfl) _

theorem State.InOrder.sweepWork (h : s.InOrder x) : s.sweepWork.InOrder x := h.of_fields (by simp) (by simp) (by simp) (by simp) (by simp)

theorem State.InOrder.runSheet (h : s.InOrder (some n)) : (s.runSheet n).InOrder none := by
  unfold State.runSheet
  dsimp only
  split
  · exact h.refuseCell _
  · exact State.InOrder.handOver_dispatched (State.runEntries_keeps (P := fun u => u.InOrder (some n)) (fun _ hu => hu.sweepWork)
      (fun _ _ ho hu => hu.orderRun ho) (fun _ _ _ _ hu => hu.of_fields rfl rfl rfl rfl rfl) _ 0 s (by omega) h) _

theorem State.InOrder.joinSpare (h : s.InOrder (some n)) : (s.joinSpare n).InOrder none := by
  unfold State.joinSpare
  split
  · have hjoined := h.roles.join (n := n) (by simp [State.roleBut])
    obtain ⟨hrising, hkeys⟩ := h.setKept_table (n := n) { role := .spare, clash := ((s.keptAt n.val).map Kept.clash).getD false }
    rw [← State.roleBut_none_setKept { role := .spare, clash := ((s.keptAt n.val).map Kept.clash).getD false }] at hjoined
    exact ⟨hrising, hkeys, hjoined, h.sides⟩
  · exact h.handOver_dispatched _

/-! ### Arrival -/

/-- Of the cells that a list names, the blocks of a parcel add its own, once for each entry made. -/
theorem Channel.placeBlocks_count (c : Channel) (n : CellNo) (coding : Coding) (bs : List Block) (m : CellNo) :
    ((c.placeBlocks n coding bs).1.list.map Entry.cell).count m =
      (c.list.map Entry.cell).count m + if m = n then (c.placeBlocks n coding bs).2 else 0 := by
  have hfold := Channel.foldl_placeBlock_keeps (n := n) (coding := coding)
    (P := fun r => (r.1.list.map Entry.cell).count m = (c.list.map Entry.cell).count m + if m = n then r.2 else 0)
    (fun b acc acc' hp hacc => by
      cases hp with
      | passed cs r => exact hacc
      | made cs r hclass hnew =>
        have hperm := (insertEntry_perm acc.1.cursor (acc.1.entryOf n coding b) acc.1.list).map Entry.cell
        dsimp only at hacc ⊢
        rw [hperm.count_eq, List.map_cons, List.count_cons, hacc]
        by_cases e : m = n
        · simp [Channel.entryOf, e]
          omega
        · simp [Channel.entryOf, e, Ne.symm e]) bs (c, 0) (by simp)
  unfold Channel.placeBlocks
  dsimp only
  split
  · exact hfold
  · exact hfold

theorem Channel.placeBlocks_ne_closed {c : Channel} (h : c.state ≠ .closed) (n : CellNo) (coding : Coding) (bs : List Block) :
    (c.placeBlocks n coding bs).1.state ≠ .closed := by
  have hfold := Channel.foldl_placeBlock_keeps (n := n) (coding := coding) (P := fun r => r.1.state = c.state)
    (fun b acc acc' hp hacc => by
      cases hp with
      | passed cs r => exact hacc
      | made cs r hclass hnew => exact hacc) bs (c, 0) rfl
  unfold Channel.placeBlocks
  dsimp only
  split
  · nofun
  · rwa [hfold]

theorem State.InOrder.placeParcel (h : s.InOrder (some n)) (hopen : (s.chan.get ch).state ≠ .closed) (coding : Coding) (bs : List Block) :
    (s.placeParcel ch n coding bs).InOrder none := by
  have hnone : s.roleBut (some n) n = none := by simp [State.roleBut]
  have hfresh : (s.names ch).count n = 0 := by
    refine List.count_eq_zero_of_not_mem fun hn => ?_
    obtain ⟨r, hr⟩ := h.roles.named ch n hn
    rw [hnone] at hr
    cases hr
  have hcount := (s.chan.get ch).placeBlocks_count n coding bs
  have hplaced := h.roles.place (ch := ch) hnone (l := ((s.chan.get ch).placeBlocks n coding bs).1.list.map Entry.cell)
    (fun m hm => by rw [hcount m, if_neg hm]; rfl)
  have hmade : (((s.chan.get ch).placeBlocks n coding bs).1.list.map Entry.cell).count n = ((s.chan.get ch).placeBlocks n coding bs).2 := by
    rw [hcount n, if_pos rfl]
    exact (congrArg (· + _) hfresh).trans (Nat.zero_add _)
  rw [hmade, ← State.names_setChan] at hplaced
  have hsides : ∀ m, sidesOk ((s.setChan ch ((s.chan.get ch).placeBlocks n coding bs).1).chan.get m) (s.cap.get m) := by
    intro m
    by_cases e : m = ch
    · subst e
      obtain ⟨hsides, -, hasm⟩ := h.sides m
      have hne := Channel.placeBlocks_ne_closed hopen n coding bs
      rw [State.setChan_chan, Four.get_set_same]
      exact ⟨iff_of_false hne fun hc => hopen (hsides.mpr hc), fun hc => absurd hc hne, hasm⟩
    · rw [State.setChan_chan, Four.get_set_other _ _ e]
      exact h.sides m
  obtain ⟨k, hk, hrole⟩ : ∃ k : Kept, (s.setChan ch ((s.chan.get ch).placeBlocks n coding bs).1).setRole n
      (.parcel ch ((s.chan.get ch).placeBlocks n coding bs).2) = (s.setChan ch ((s.chan.get ch).placeBlocks n coding bs).1).setKept n k ∧
      k.role = .parcel ch ((s.chan.get ch).placeBlocks n coding bs).2 := ⟨_, rfl, rfl⟩
  obtain ⟨hrising, hkeys⟩ := h.setKept_table (n := n) k
  unfold State.placeParcel
  dsimp only
  rw [hk]
  by_cases hz : ((s.chan.get ch).placeBlocks n coding bs).2 = 0
  · rw [if_pos hz] at hplaced ⊢
    rw [Function.update_eq_self_iff.mpr hnone.symm, ← State.roleBut_some_setKept k] at hplaced
    have hin : ((s.setChan ch ((s.chan.get ch).placeBlocks n coding bs).1).setKept n k).InOrder (some n) :=
      ⟨hrising, hkeys, hplaced, hsides⟩
    exact hin.handOver_dispatched _
  · rw [if_neg hz] at hplaced ⊢
    rw [← hrole, ← State.roleBut_none_setKept] at hplaced
    exact ⟨hrising, hkeys, hplaced, hsides⟩

theorem State.InOrder.moveCursor (h : s.InOrder x) (hopen : (s.chan.get ch).state ≠ .closed) (kind : ParcelKind) (ts : Word) :
    (s.moveCursor ch kind ts).InOrder x ∧ ((s.moveCursor ch kind ts).chan.get ch).state ≠ .closed := by
  refine ⟨?_, ?_⟩
  · cases kind with
    | anchoring => exact h.setChan (by rfl) (iff_of_false nofun hopen)
    | reanchoring => exact h.setChan (by rfl) Iff.rfl
    | ordinary => exact h
    | resync early =>
      rw [State.moveCursor, State.resync_eq]
      exact State.InOrder.giveMark _ ((h.flushed (ch := ch)).setChan (by rfl) (iff_of_false nofun (by simpa using hopen)))
  · rw [State.moveCursor_chan, Four.get_set_same]
    cases kind with
    | anchoring => nofun
    | reanchoring => exact hopen
    | ordinary => exact hopen
    | resync early => nofun

theorem State.InOrder.arrive (h : s.InOrder (some n)) (hopen : (s.chan.get ch).state ≠ .closed) (coding : Coding) (hd : ParcelHeader) :
    (s.arrive ch n coding hd).InOrder none := by
  have hstate : (((s.chan.get ch).alignment hd).2.jitterStepFor ((s.chan.get ch).alignment hd).1 (transit s.now hd.ts)).state =
      (s.chan.get ch).state := by rw [Channel.jitterStepFor_fields, Channel.alignment_fields]
  have hlist : (((s.chan.get ch).alignment hd).2.jitterStepFor ((s.chan.get ch).alignment hd).1 (transit s.now hd.ts)).list =
      (s.chan.get ch).list := by rw [Channel.jitterStepFor_fields, Channel.alignment_fields]
  have haligned := h.setChan hlist (by rw [hstate])
  obtain ⟨hmoved, hne⟩ := haligned.moveCursor (ch := ch) (by simpa [hstate] using hopen) ((s.chan.get ch).alignment hd).1 hd.ts
  exact hmoved.placeParcel hne coding hd.blocks

/-! ### Takes, clashes and the step -/

theorem State.InOrder.takeCell (h : s.InOrder none) (hfree : s.keptAt n.val = none) (posted : Byte) : (s.takeCell n posted).InOrder none := by
  have hwork := h.sweepWork
  have hfree' : s.sweepWork.keptAt n.val = none := by rwa [State.keptAt, s.sweepWork_ex]
  have hrole : s.sweepWork.roleBut (some n) = s.sweepWork.roleBut none := by
    funext m
    by_cases e : m = n
    · simp [State.roleBut, State.roleAt, e, hfree']
    · simp [State.roleBut, Ne.symm e]
  have htaken : ∀ k v, (((s.sweepWork.putByte n.val stampKept).setKept n k).setTally .posts v).InOrder (some n) := by
    intro k v
    obtain ⟨hrising, hkeys⟩ := hwork.setKept_table (n := n) k
    have hroles := hwork.roles
    rw [← hrole, ← State.roleBut_some_setKept k] at hroles
    exact ⟨hrising, hkeys, hroles, hwork.sides⟩
  unfold State.takeCell State.dispatch
  dsimp only
  split
  · unfold State.dispatchParcel
    dsimp only
    split
    · exact (htaken _ _).refuseCell _
    · next ch coding hv => exact (htaken _ _).arrive (State.validateParcel_ok hv) coding _
  · split
    · exact (htaken _ _).runSheet
    · exact (htaken _ _).joinSpare

theorem State.InOrder.clash (h : s.InOrder none) {k : Kept} (hk : s.keptAt n.val = some k) (posted : Byte) :
    (s.clash n k posted).InOrder none := by
  have hwork := h.sweepWork
  have hk' : s.sweepWork.keptAt n.val = some k := by rwa [State.keptAt, s.sweepWork_ex]
  unfold State.clash
  split
  · exact h
  · refine State.InOrder.giveMark _ ?_
    obtain ⟨hrising, hkeys⟩ := hwork.setKept_table (n := n) { k with clash := true }
    refine ⟨hrising, hkeys, ?_, hwork.sides⟩
    rw [State.roleBut_setKept (x := none) _ nofun, Function.update_eq_self_iff.mpr]
    · exact hwork.roles
    · rw [State.roleBut_none, State.roleAt, hk']
      rfl

end Keeping

theorem inOrder_reset : State.reset.InOrder none where
  rising := rfl
  keys := nofun
  roles := by
    have hempty : ∀ ch, State.reset.names ch = [] := by decide
    have hnone : ∀ ch, State.reset.assemblies ch = none := by decide
    rw [funext hempty, funext hnone]
    exact ⟨nofun, nofun, fun _ => iff_of_false nofun nofun, .nil, fun _ _ => iff_of_false nofun nofun, fun _ => iff_of_false nofun nofun, fun _ => nofun⟩
  sides := by
    unfold sidesOk
    decide

theorem State.Effect.keeps_inOrder {s t : State} {c : Instr} (h : s.Effect c t) (hs : s.InOrder none) : t.InOrder none := by
  have hfields : ∀ {u : State}, u.ex.keeping = s.ex.keeping → u.ex.spare = s.ex.spare → u.marks.sheet = s.marks.sheet → u.chan = s.chan →
      u.cap = s.cap → u.InOrder none := fun hk hp hm hc hv => hs.of_fields hk hp hm hc hv
  have hreset : ∀ (b : Bus) (m : Memory) (q : List Instr), ({ State.reset with bus := b, mem := m, pending := q } : State).InOrder none :=
    fun b m q => inOrder_reset.of_fields rfl rfl rfl rfl rfl
  cases h with
  | nothing => exact hs
  | event c e => exact hs.partEvent e
  | passFree p hr => exact hs.lineStep s.lineStep_passFree
  | powerOn ram =>
    cases ram with
    | none => exact hreset _ _ _
    | some cells => exact hreset _ _ _
  | runctl c lanes data hc =>
    exact s.writeRunctl_keeps (P := fun u => u.InOrder none) lanes data (hreset _ _ _) (fun _ hu => hu.of_fields rfl rfl rfl rfl rfl)
      (fun _ hu => hu.of_fields rfl rfl rfl rfl rfl) hs
  | attnctl c lanes data => exact s.writeAttnctl_keeps (P := fun u => u.InOrder none) lanes data fun _ => hfields rfl rfl rfl rfl rfl
  | tally c t after =>
    refine State.operateTally_keeps (P := fun u => u.InOrder none) t after hs (fun _ _ hu => hu.of_fields rfl rfl rfl rfl rfl) fun u v hu => ?_
    cases t with
    | posts => exact hu.of_fields rfl rfl rfl rfl rfl
    | ready => exact hu.of_fields rfl rfl rfl rfl rfl
  | hostWrite half lanes data =>
    exact State.hostWrite_keeps (P := fun u => u.InOrder none) _ lanes data hs (fun _ _ => hfields rfl rfl rfl rfl rfl)
      fun _ _ _ hu => hu.of_fields rfl rfl rfl rfl rfl
  | samplePeriod line hr =>
    obtain ⟨-, hex, hmarks, hchan, hcap⟩ := (s.lineSamples line).advanceClock_fields
    exact hfields (by rw [hex]; rfl) (by rw [hex]; rfl) (by rw [hmarks]; rfl) hchan hcap
  | sweep work between ht =>
    exact State.sweepStep_keeps (P := fun u => u.InOrder none) work between (fun _ _ hu => hu.of_fields rfl rfl rfl rfl rfl)
      (fun _ hu => hu.of_fields rfl rfl rfl rfl rfl) (fun _ e hu => hu.partEvent e) (fun _ _ _ hk hu => hu.clash hk _)
      (fun _ _ _ hfree hu => hu.takeCell hfree _) (s.undue .sweep) (hfields rfl rfl rfl rfl rfl)

/-- Settles O60: every operation moves one cell from one role to another together with the list, the stock, the assembly cell or the sheet
that holds it; a cell in the course of its dispatch counts as not kept until its dispatch gives it a role or hands it over. -/
theorem stepKeepsTheKeepingInOrder : Obligations.StepKeepsTheKeepingInOrder := by
  intro s t hs h
  rw [State.keepingOk_iff] at hs ⊢
  exact step_keeps (P := fun u => u.InOrder none) (fun _ _ hu => hu.of_fields rfl rfl rfl rfl rfl)
    (fun _ _ _ he hu => he.keeps_inOrder hu) hs h

end Sys2Proof.Machine

/-! ## The host's side: steps, resets, the control window, the tallies and memory writes -/

namespace Sys2Proof.Machine

/-- Settles O1: both clauses are `step`'s own match on the queue. -/
theorem stepTakesTheFrontCommand : Obligations.StepTakesTheFrontCommand := by
  refine ⟨fun c rest s => rfl, fun s h => ?_⟩
  unfold step
  rw [h]

/-! ### Resets -/

@[simp] theorem State.reset_chan (p : LineNo) : State.reset.chan.get p = Channel.reset := Four.get_all _ _
@[simp] theorem State.reset_cap (p : LineNo) : State.reset.cap.get p = Capture.reset := Four.get_all _ _
@[simp] theorem State.reset_port (p : LineNo) : State.reset.port.get p = Port.reset := Four.get_all _ _
@[simp] theorem State.reset_ring (p : LineNo) : State.reset.ring.get p = Ring.reset := Four.get_all _ _
@[simp] theorem State.reset_ident (p : LineNo) : State.reset.ident.get p = Ident.reset := Four.get_all _ _
@[simp] theorem State.reset_tone (p : LineNo) : State.reset.tone.get p = Tone.reset := Four.get_all _ _
@[simp] theorem State.reset_verdict (p : LineNo) : State.reset.verdict.get p = Verdict.reset := Four.get_all _ _

/-- Settles O2: the power-on record of each block, read off line by line. -/
theorem resetHoldsThePowerOnValues : Obligations.ResetHoldsThePowerOnValues := by
  refine ⟨rfl, rfl, rfl, rfl, rfl, rfl, rfl, rfl, rfl, fun p => ⟨?_, ?_, ?_, ?_, ?_, ?_⟩⟩
  · rw [State.reset_chan]
    exact ⟨rfl, rfl, rfl, rfl, rfl, rfl, rfl, rfl, rfl, rfl, rfl, rfl, rfl, rfl, rfl, rfl, rfl, rfl⟩
  · rw [State.reset_cap]
    exact ⟨rfl, rfl, rfl, rfl, rfl, rfl, rfl, rfl⟩
  · unfold State.feedActive State.revActive State.ringDriven
    rw [State.reset_port, State.reset_ring]
    exact ⟨rfl, rfl, rfl, rfl, rfl, rfl, rfl, rfl, rfl, rfl, rfl, rfl, rfl, rfl⟩
  · rw [State.reset_ring, State.reset_ident]
    exact ⟨rfl, rfl, rfl, rfl, rfl, rfl, rfl⟩
  · exact State.reset_tone p
  · rw [State.reset_verdict]
    exact ⟨rfl, rfl, rfl, rfl, rfl, rfl, rfl, rfl, rfl, rfl⟩

/-- Settles O54: each promise at reset, from the part that keeps it. -/
theorem resetMeetsEveryPromise : Obligations.ResetMeetsEveryPromise :=
  ⟨rfl, stockOk_reset, linesOk_reset, windowsOk_reset, State.reset.keepingOk_iff.mpr inOrder_reset, captureOk_reset⟩

/-- Memory filled by stores reads, at each address, the last byte that the stores name for it, and else what it held. -/
theorem Memory.read_foldl_write (cells : List Host.Cell) {a : Nat} (ha : a < 65536) : ∀ m : Memory, m.wf = true →
    (cells.foldl (fun m c => m.write c.1 c.2) m).read a = (cells.reverse.lookup a).getD (m.read a) := by
  induction cells with
  | nil => exact fun m _ => rfl
  | cons c cs ih =>
    intro m hm
    rw [List.foldl_cons, ih _ (m.wf_write c.1 c.2 hm), List.reverse_cons, List.lookup_append]
    by_cases e : c.1 = a
    · subst e
      rw [m.read_write_same c.2 hm ha]
      cases cs.reverse.lookup c.1 <;> simp [List.lookup]
    · rw [m.read_write_other c.2 hm (Ne.symm e)]
      have hb : (a == c.1) = false := beq_false_of_ne (Ne.symm e)
      cases cs.reverse.lookup a <;> simp [List.lookup, hb]

/-- Settles O3: the memory left is the canonical one of the given cells; with RST# low every line and read is gated by `held`. -/
theorem powerOnResetLeavesWhatTheRamHolds : Obligations.PowerOnResetLeavesWhatTheRamHolds := by
  refine ⟨fun ram s => ?_, fun s => rfl, fun s hheld => ⟨?_, fun window half => ?_, fun p => ⟨?_, ?_, ?_⟩⟩⟩
  · exact ⟨Memory.ofCells ram, rfl, Memory.wf_ofCells ram, fun a ha => Memory.read_foldl_write ram ha [] Memory.wf_nil⟩
  · simp [State.attnAsserted, hheld]
  · simp [State.busRead, hheld]
  · simp [State.feedActive, hheld]
  · simp [State.revActive, hheld]
  · simp [State.ringDriven, hheld]

/-! ### Register writes -/

theorem State.runctl_getLsbD (s : State) (i : Nat) :
    s.runctl.getLsbD i = (i == 0 && s.clock.running || i == 2 && s.ex.guard) := by
  unfold State.runctl
  by_cases h : i < 16
  · interval_cases i <;> cases s.clock.running <;> cases s.ex.guard <;> rfl
  · rw [BitVec.getLsbD_of_ge _ _ (by omega)]
    have h0 : (i == 0) = false := by simp; omega
    have h2 : (i == 2) = false := by simp; omega
    rw [h0, h2]
    rfl

theorem State.attnctl_getLsbD (s : State) (i : Nat) :
    s.attnctl.getLsbD i = (i == 0 && s.bus.enReady || i == 1 && s.bus.enGuard) := by
  unfold State.attnctl
  by_cases h : i < 16
  · interval_cases i <;> cases s.bus.enReady <;> cases s.bus.enGuard <;> rfl
  · rw [BitVec.getLsbD_of_ge _ _ (by omega)]
    have h0 : (i == 0) = false := by simp; omega
    have h1 : (i == 1) = false := by simp; omega
    rw [h0, h1]
    rfl

theorem State.writeRunctl_discarded {s : State} {lanes : Lanes} (h : s.bus.held = true ∨ lanes.low = false) (data : Half) :
    s.writeRunctl lanes data = s := by
  unfold State.writeRunctl
  rw [if_pos]
  rcases h with h | h <;> simp [h]

theorem State.writeRunctl_reset {s : State} {lanes : Lanes} {data : Half} (hheld : s.bus.held = false) (hlow : lanes.low = true)
    (h : data.getLsbD 1 = true) : s.writeRunctl lanes data = s.softReset := by
  simp [State.writeRunctl, hheld, hlow, h]

/-- Without RESET, RUNCTL's GUARD clears GUARD, and its RUN then starts a HALTED part. -/
theorem State.writeRunctl_fields {s : State} {lanes : Lanes} {data : Half} (hheld : s.bus.held = false) (hlow : lanes.low = true)
    (h : data.getLsbD 1 = false) : s.writeRunctl lanes data =
      (let u : State := { s with ex := { s.ex with guard := s.ex.guard && !data.getLsbD 2 } }
       if data.getLsbD 0 && !s.clock.running then u.start else u) := by
  unfold State.writeRunctl
  rw [hheld, hlow, h]
  cases data.getLsbD 2 <;> simp

/-- A RUNCTL row of any of the three names is the one write (log 18). -/
theorem exec_runctl {c : Instr} {lanes : Lanes} {data : Half} (s : State)
    (h : c = .softReset lanes data ∨ c = .run lanes data ∨ c = .guardClear lanes data) :
    exec c s = .next (s.writeRunctl lanes data) := by
  rcases h with rfl | rfl | rfl <;> rfl

/-- Settles O4: the write by its discard, its RESET, and its RUN and GUARD. -/
theorem runctlWriteActsOnItsFields : Obligations.RunctlWriteActsOnItsFields := by
  intro lanes data s c hc
  rw [exec_runctl s hc]
  refine ⟨s.runctl_getLsbD, fun h => ?_, fun h0 h1 h2 => ?_, fun hheld hlow => ⟨fun h1 => ?_, fun h1 h0 hrun => ?_, fun h1 h => ?_⟩⟩
  · rw [State.writeRunctl_discarded h]
  · cases hb : s.bus.held || !lanes.low with
    | true => rw [State.writeRunctl_discarded (by simpa using hb)]
    | false =>
      simp only [Bool.or_eq_false_iff, Bool.not_eq_false'] at hb
      rw [State.writeRunctl_fields hb.1 hb.2 h1, h0, h2]
      simp
  · rw [State.writeRunctl_reset hheld hlow h1]
    rfl
  · rw [State.writeRunctl_fields hheld hlow h1, h0, hrun]
    rfl
  · rw [State.writeRunctl_fields hheld hlow h1]
    rw [if_neg]
    rcases h with h | h <;> simp only [h, Bool.false_and, Bool.not_true, Bool.and_false, Bool.false_eq_true, not_false_eq_true]

theorem State.writeAttnctl_held {s : State} (h : s.bus.held = true) (lanes : Lanes) (data : Half) : s.writeAttnctl lanes data = s :=
  if_pos h

/-- Settles O5: the write by its lane, and each line by the state it follows. -/
theorem attnctlWriteSetsTheEnables : Obligations.AttnctlWriteSetsTheEnables := by
  refine ⟨fun lanes data s => ⟨fun h => ?_, fun h => ?_⟩, fun s => ⟨s.attnctl_getLsbD, fun hheld => ⟨?_, fun p => ⟨?_, ?_, ?_⟩⟩⟩⟩
  · exact congrArg _ (State.writeAttnctl_held h lanes data)
  · show Host.Outcome.next (s.writeAttnctl lanes data) = _
    unfold State.writeAttnctl
    rw [if_neg (by simp [h])]
    cases lanes.low <;> rfl
  · simp [State.attnAsserted, hheld]
  · unfold State.feedActive
    rw [hheld]
    cases (s.port.get p).state <;> simp
  · simp [State.revActive, hheld]
  · simp [State.ringDriven, hheld, and_assoc]

/-! ### The control window and the tallies -/

/-- Every read at an operation address is the command of that address on its tally. -/
theorem windowReadCommand_eq_some {half : BitVec 15} {c : Instr} (h : windowReadCommand half = some c) :
    (half.toNat < 4 ∧ (c = .peek .posts ∨ c = .add .posts ∨ c = .take .posts ∨ c = .clear .posts)) ∨
    (4 ≤ half.toNat ∧ half.toNat < 8 ∧ (c = .peek .ready ∨ c = .add .ready ∨ c = .take .ready ∨ c = .clear .ready)) := by
  unfold windowReadCommand at h
  by_cases h4 : half.toNat < 4
  · rw [if_pos h4] at h
    refine .inl ⟨h4, ?_⟩
    generalize half.toNat = i at h h4
    interval_cases i <;> simp [tallyOperation] at h <;> simp [← h]
  · rw [if_neg h4] at h
    by_cases h8 : half.toNat < 8
    · refine .inr ⟨by omega, h8, ?_⟩
      generalize half.toNat = i at h h4 h8
      interval_cases i <;> simp [tallyOperation] at h h4 <;> simp [← h]
    · obtain ⟨k, hk⟩ : ∃ k, half.toNat - 4 = k + 4 := ⟨half.toNat - 8, by omega⟩
      rw [hk] at h
      cases h

/-- A tally command returns the tally as it stood, or 0000h with RST# low. -/
theorem exec_tally_bus {t : Tally} {c : Instr} (h : c = .peek t ∨ c = .add t ∨ c = .take t ∨ c = .clear t) (s : State) :
    ∃ u, exec c s = .next u ∧ u.bus = { s.bus with readData := if s.bus.held then 0 else (s.tally t).setWidth 16 } := by
  have hop : ∀ after, (s.operateTally t after).bus =
      { s.bus with readData := if s.bus.held then 0 else (s.tally t).setWidth 16 } := by
    intro after
    unfold State.operateTally
    cases hh : s.bus.held with
    | true => rfl
    | false =>
      rw [if_neg Bool.false_ne_true, State.setTally_bus]
      rfl
  rcases h with rfl | rfl | rfl | rfl <;> exact ⟨_, rfl, hop _⟩

theorem windowReadCommand_none {half : BitVec 15} (h : 8 ≤ half.toNat) : windowReadCommand half = none := by
  cases hc : windowReadCommand half with
  | none => rfl
  | some c => rcases windowReadCommand_eq_some hc with ⟨h4, -⟩ | ⟨-, h8, -⟩ <;> omega

theorem State.readWindow_posts (s : State) {half : BitVec 15} (h : half.toNat < 4) : s.readWindow half = s.ex.posts.setWidth 16 :=
  if_pos h

theorem State.readWindow_ready (s : State) {half : BitVec 15} (h4 : 4 ≤ half.toNat) (h8 : half.toNat < 8) :
    s.readWindow half = s.ex.ready.setWidth 16 := (if_neg (by omega)).trans (if_pos h8)

theorem State.readWindow_none (s : State) {half : BitVec 15} (h : 12 ≤ half.toNat) : s.readWindow half = 0 := by
  unfold State.readWindow
  simp only [show ¬ half.toNat < 4 by omega, show ¬ half.toNat < 8 by omega, show half.toNat ≠ 8 by omega,
    show half.toNat ≠ 9 by omega, show half.toNat ≠ 10 by omega, show half.toNat ≠ 11 by omega, if_false]

theorem State.busRead_window {s : State} (h : s.bus.held = false) (half : BitVec 15) : s.busRead true half = s.readWindow half := by
  simp [State.busRead, h]

/-- A write that addresses neither RUNCTL nor ATTNCTL is discarded. -/
theorem State.writeWindow_discarded (s : State) {half : BitVec 15} (h9 : half.toNat ≠ 9) (h10 : half.toNat ≠ 10) (lanes : Lanes)
    (data : Half) : s.writeWindow half lanes data = s := by
  unfold State.writeWindow
  rw [if_neg (fun e => h9 (congrArg BitVec.toNat e)), if_neg (fun e => h10 (congrArg BitVec.toNat e))]

/-- Settles O6: the window by its ranges of half-words, and each operation address by the command it is. -/
theorem controlWindowDecodesItsAddresses : Obligations.ControlWindowDecodesItsAddresses := by
  refine ⟨fun s hheld => ?_, ⟨rfl, rfl, rfl, rfl, rfl, rfl, rfl, rfl, fun half => windowReadCommand_none⟩, ?_, ?_⟩
  · simp only [State.busRead_window hheld]
    refine ⟨fun half => s.readWindow_posts, fun half => s.readWindow_ready, rfl, s.runctl_getLsbD, s.attnctl_getLsbD, rfl,
      fun half => s.readWindow_none, fun half => ?_⟩
    simp [State.busRead, hheld, State.readMemory, State.halfAt, le16]
  · intro half c s hc
    have hread : ∀ t : Tally, s.readWindow half = (s.tally t).setWidth 16 →
        s.busRead true half = if s.bus.held then 0 else (s.tally t).setWidth 16 := by
      intro t ht
      simp [State.busRead, ht]
    rcases windowReadCommand_eq_some hc with ⟨h4, hc⟩ | ⟨h4, h8, hc⟩
    · rw [hread .posts (s.readWindow_posts h4)]
      exact exec_tally_bus hc s
    · rw [hread .ready (s.readWindow_ready h4 h8)]
      exact exec_tally_bus hc s
  · exact fun half lanes data s h9 h10 => congrArg _ (s.writeWindow_discarded h9 h10 lanes data)

theorem tallyAdd_eq (v : BitVec 8) : tallyAdd v = BitVec.ofNat 8 (min 255 (v.toNat + 1)) := by
  unfold tallyAdd
  split
  · next h => subst h; rfl
  · next h =>
    have hne : v.toNat ≠ 255 := fun e => h (BitVec.eq_of_toNat_eq e)
    apply BitVec.eq_of_toNat_eq
    have := v.isLt
    simp
    omega

theorem tallyTake_eq (v : BitVec 8) : tallyTake v = BitVec.ofNat 8 (v.toNat - 1) := by
  unfold tallyTake
  split
  · next h => subst h; rfl
  · next h =>
    have hne : v.toNat ≠ 0 := fun e => h (BitVec.eq_of_toNat_eq e)
    apply BitVec.eq_of_toNat_eq
    have := v.isLt
    simp
    omega

theorem State.operateTally_held {s : State} (h : s.bus.held = true) (t : Tally) (after : BitVec 8) :
    s.operateTally t after = { s with bus := { s.bus with readData := 0 } } := if_pos h

theorem State.operateTally_posts {s : State} (h : s.bus.held = false) (after : BitVec 8) :
    s.operateTally .posts after = { s with
      bus := { s.bus with readData := s.ex.posts.setWidth 16 }
      ex := { s.ex with posts := after } } := if_neg (by simp [h])

theorem State.operateTally_ready {s : State} (h : s.bus.held = false) (after : BitVec 8) :
    s.operateTally .ready after = { s with
      bus := { s.bus with readData := s.ex.ready.setWidth 16 }
      ex := { s.ex with ready := after } } := if_neg (by simp [h])

/-- Settles O7: the operation on each tally, its result as a number. -/
theorem tallyReadsReturnAndOperate : Obligations.TallyReadsReturnAndOperate := by
  intro s
  simp only [exec, execPeek, execAdd, execTake, execClear, tallyAdd_eq, tallyTake_eq, BitVec.ofNat_toNat, BitVec.setWidth_eq]
  refine ⟨fun h => ?_, fun h t => ?_⟩
  · rw [State.operateTally_posts h, State.operateTally_posts h, State.operateTally_posts h, State.operateTally_posts h,
      State.operateTally_ready h, State.operateTally_ready h, State.operateTally_ready h, State.operateTally_ready h]
    exact ⟨rfl, rfl, rfl, rfl, rfl, rfl, rfl, rfl⟩
  · have hnone : ∀ after : BitVec 8, Host.Outcome.next (φ := Fault) (ρ := Refusal) (s.operateTally t after) =
        .next { s with bus := { s.bus with readData := 0 } } := fun after => congrArg _ (State.operateTally_held h t after)
    exact ⟨hnone _, hnone _, hnone _, hnone _⟩

/-! ### Host writes to exchange memory -/

theorem State.storeLanes_eq (s : State) (addr : Nat) (lanes : Lanes) (data : Half) : s.storeLanes addr lanes data =
    { s with mem :=
        let m := if lanes.low then s.mem.write addr (data.extractLsb' 0 8) else s.mem
        if lanes.high then m.write (addr + 1) (data.extractLsb' 8 8) else m } := by
  unfold State.storeLanes
  cases lanes.low <;> cases lanes.high <;> rfl

theorem Memory.read_write {m : Memory} (hm : m.wf = true) (b : Byte) {x : Nat} (hx : x < 65536) (a : Nat) :
    (m.write x b).read a = if a = x then b else m.read a := by
  split
  · next e => rw [e, m.read_write_same b hm hx]
  · next e => rw [m.read_write_other b hm e]

/-- What memory reads after a store of the enabled lanes. -/
theorem State.storeLanes_read (s : State) (half : BitVec 15) (lanes : Lanes) (data : Half) (hm : s.mem.wf = true) (a : Nat) :
    (s.storeLanes (2 * half.toNat) lanes data).mem.read a =
      if a = 2 * half.toNat ∧ lanes.low = true then data.extractLsb' 0 8
      else if a = 2 * half.toNat + 1 ∧ lanes.high = true then data.extractLsb' 8 8
      else s.mem.read a := by
  have hlt := half.isLt
  have hlo : 2 * half.toNat < 65536 := by omega
  have hhi : 2 * half.toNat + 1 < 65536 := by omega
  have hlow := Memory.read_write hm (data.extractLsb' 0 8) hlo a
  have hhigh := fun m hm' => Memory.read_write (m := m) hm' (data.extractLsb' 8 8) hhi a
  rw [State.storeLanes_eq]
  cases lanes.low <;> cases lanes.high
  · simp
  · simp [hhigh _ hm]
  · simp [hlow]
  · simp only [if_true, and_true, hhigh _ (s.mem.wf_write _ _ hm), hlow]
    by_cases e : a = 2 * half.toNat
    · rw [if_neg (by omega), if_pos e, if_pos e]
    · rw [if_neg e, if_neg e]

theorem State.writeGuarded_of_kept {s : State} {n : CellNo} {addr : Nat} {lanes : Lanes} (hlane : lanes.low = true ∨ lanes.high = true)
    (hlo : 0x400 + 512 * n.val ≤ addr) (hhi : addr ≤ 0x400 + 512 * n.val + 511) (hk : s.isKept n.val = true) :
    s.writeGuarded addr lanes = true := by
  have hcell : cellOfAddr addr = some n.val := by
    unfold cellOfAddr
    rw [if_neg (by omega), show (addr - 0x400) / 512 = n.val by omega]
  unfold State.writeGuarded
  rw [hcell, (Bool.or_eq_true _ _).mpr hlane]
  exact hk

theorem State.writeGuarded_of_free {s : State} {addr : Nat} (h : addr < 0x400 ∨ s.isKept ((addr - 0x400) / 512) = false)
    (lanes : Lanes) : s.writeGuarded addr lanes = false := by
  unfold State.writeGuarded cellOfAddr
  by_cases hlo : addr < 0x400
  · simp [hlo]
  · simp [hlo, h.resolve_left hlo]

/-- Settles O8: the write stored, guarded, or discarded while RST# is low. -/
theorem hostWriteIsStoredOrGuarded : Obligations.HostWriteIsStoredOrGuarded := by
  have hexec : ∀ (half : BitVec 15) (lanes : Lanes) (data : Half) (s : State), exec (.hostMemoryWrite half lanes data) s =
      .next (s.hostWrite (2 * half.toNat) lanes data) := fun _ _ _ _ => rfl
  simp only [Obligations.HostWriteIsStoredOrGuarded, hexec, State.hostWrite]
  refine ⟨fun half lanes data s hheld hm hfree => ?_, fun half lanes data s n hheld hlane hlo hhi hk => ?_,
    fun half lanes data s hheld => by simp [hheld]⟩
  · rw [hheld, State.writeGuarded_of_free hfree]
    refine ⟨(s.storeLanes (2 * half.toNat) lanes data).mem, ?_, s.storeLanes_read half lanes data hm⟩
    simp [State.storeLanes_eq]
  · rw [hheld, State.writeGuarded_of_kept hlane hlo hhi hk]
    exact ⟨fun hg => by simp [State.recordGuard, hg], fun hg => by simp [State.recordGuard, hg]⟩

end Sys2Proof.Machine

/-! ## HALTED, and what a sweep leaves behind -/

namespace Sys2Proof.Machine

/-! ### No event in HALTED (R183) -/

/-- An event of the part's own finds nothing to take while the part is HALTED. -/
theorem State.partEvent_halted {s : State} (h : s.clock.running = false) (e : PartEvent) : s.partEvent e = s := by
  have htake : ∀ (e : Event) (effect : State → State), s.takeEvent e effect = s :=
    fun e effect => s.takeEvent_left e effect (s.canTake_halted e h)
  cases e with
  | frameBoundary ch => exact htake (.frame ch) fun u => u.playBoundary ch
  | farFrame p => simp [State.partEvent, State.farFrameEvent, h]
  | captureEvent ch => exact htake (.capture ch) fun u => if (u.chan.get ch).state = .closed then u else u.captureStep ch
  | lineVerdict p => exact htake (.verdict p) fun u => u.lineVerdictStep p
  | toneTrigger ch cause => simp [State.partEvent, State.triggerEvent, h]
  | lineScan p hook trip => exact htake (.scan p) fun u => u.scanStep p hook trip
  | portTimer p => exact htake (.timer p) fun u => u.timerStep p
  | cadenceTick p => exact htake (.tick p) fun u => u.tickStep p
  | ringDrive p => simp [State.partEvent, State.driveEvent, h]
  | markWriter => exact htake .markWriter State.markBoundary

/-- Nor does a row that names an expiry or a tick by what it brings about. -/
theorem State.ite_partEvent_halted {s : State} (h : s.clock.running = false) (e : PartEvent) (b : Bool) :
    (if b then s.partEvent e else s) = s := by
  rw [State.partEvent_halted h, ite_self]

theorem exec_halted {c : Instr} {s : State} (hc : partEvent c = true) (h : s.clock.running = false) : exec c s = .next s := by
  have hevent := State.partEvent_halted h
  have hnamed := State.ite_partEvent_halted h
  cases c with
  | powerOnReset ram => cases hc
  | softReset lanes data => cases hc
  | run lanes data => cases hc
  | guardClear lanes data => cases hc
  | attnctlWrite lanes data => cases hc
  | peek t => cases hc
  | add t => cases hc
  | take t => cases hc
  | clear t => cases hc
  | windowWriteDiscarded half lanes data => cases hc
  | hostMemoryWrite half lanes data => cases hc
  | sweep work between => exact congrArg _ (s.takeEvent_left _ _ (s.canTake_halted _ h))
  | frameBoundary ch => exact congrArg _ (hevent (.frameBoundary ch))
  | farFrame p => exact congrArg _ (hevent (.farFrame p))
  | captureEvent ch => exact congrArg _ (hevent (.captureEvent ch))
  | lineVerdict p => exact congrArg _ (hevent (.lineVerdict p))
  | toneTrigger ch cause => exact congrArg _ (hevent (.toneTrigger ch cause))
  | lineScan p hook trip => exact congrArg _ (hevent (.lineScan p hook trip))
  | portTimerExpiry p => exact congrArg _ (hevent (.portTimer p))
  | cleared p => exact congrArg _ (hnamed (.portTimer p) _)
  | digitGapExpiry p => exact congrArg _ (hnamed (.portTimer p) _)
  | cadenceTick p => exact congrArg _ (hevent (.cadenceTick p))
  | cadenceAdvance p => exact congrArg _ (hnamed (.cadenceTick p) _)
  | grantPass p => simp [exec, execGrantPass, s.canTake_halted _ h, h]
  | ringDriveToggle p => exact congrArg _ (hevent (.ringDrive p))
  | identStart p => exact congrArg _ (hnamed (.cadenceTick p) _)
  | identSent p => exact congrArg _ (hnamed (.cadenceTick p) _)
  | identTailEnd p => exact congrArg _ (hnamed (.cadenceTick p) _)
  | markWriterBoundary => exact congrArg _ (hevent .markWriter)
  | samplePeriod line => simp [exec, execSamplePeriod, h]

/-! ### The bus, RUNNING and the scan instants, through a sweep -/

/-- An event of the part, a clash and a take stand aside from the bus, the queue and RUNNING, and pass no scan instant. -/
theorem keptByPart_aside (s : State) : KeptByPart s.Aside where
  frame := fun u v _ _ _ huv hu => ⟨huv.bus.trans hu.bus, huv.pending.trans hu.pending, huv.running.trans hu.running,
    huv.octet.trans hu.octet⟩
  putCell := fun _ _ _ _ hu => ⟨hu.bus, hu.pending, hu.running, hu.octet⟩
  stamp := fun _ _ hu => ⟨hu.bus, hu.pending, hu.running, hu.octet⟩
  handOver := fun _ _ _ _ hu => ⟨hu.bus, hu.pending, hu.running, hu.octet⟩
  setKept := fun _ _ _ hu => ⟨hu.bus, hu.pending, hu.running, hu.octet⟩
  posts := fun _ _ hu => ⟨hu.bus, hu.pending, hu.running, hu.octet⟩
  claim := fun _ _ _ _ hu => ⟨hu.bus, hu.pending, hu.running, hu.octet⟩
  join := fun _ _ _ hu => ⟨hu.bus, hu.pending, hu.running, hu.octet⟩
  reserve := fun _ _ hu => ⟨hu.bus, hu.pending, hu.running, hu.octet⟩
  giveMark := fun u m hu => ⟨(u.giveMark_bus m).trans hu.bus, (u.giveMark_pending m).trans hu.pending,
    by rw [u.giveMark_clock]; exact hu.running, by rw [u.giveMark_clock]; exact hu.octet⟩
  markBoundary := fun u hu => by
    have hclock : u.markBoundary.clock = u.clock :=
      State.markBoundary_keeps (P := fun v => v.clock = u.clock) (fun v m hv => (v.writeMark_clock m).trans hv)
        (fun v w _ ho hv => (State.openSheet_clock v w ho).trans hv) (fun _ _ _ _ _ hv => hv)
        (fun v hv => v.closeSheet_clock.trans hv) u rfl
    have hbus : u.markBoundary.bus = u.bus := by rw [State.markBoundary_eq]; rfl
    have hpending : u.markBoundary.pending = u.pending := by rw [State.markBoundary_eq]; rfl
    exact ⟨hbus.trans hu.bus, hpending.trans hu.pending, by rw [hclock]; exact hu.running, by rw [hclock]; exact hu.octet⟩

theorem State.Aside.refl (s : State) : s.Aside s := ⟨rfl, rfl, rfl, rfl⟩

/-- Every effect but a power-on reset and a write of RUNCTL leaves RUNNING and RST# as they are. -/
theorem State.Effect.running {s t : State} {c : Instr} (h : s.Effect c t) :
    (t.clock.running = s.clock.running ∧ t.bus.held = s.bus.held) ∨ (∃ ram, c = .powerOnReset ram ∧ t = s.afterPowerOn ram) ∨
    ∃ lanes data, (c = .softReset lanes data ∨ c = .run lanes data ∨ c = .guardClear lanes data ∨
      c = .windowWriteDiscarded runctlHalf lanes data) ∧ t = s.writeRunctl lanes data := by
  have haside : ∀ u : State, s.Aside u → u.clock.running = s.clock.running ∧ u.bus.held = s.bus.held :=
    fun u hu => ⟨hu.running, by rw [hu.bus]⟩
  have hP := keptByPart_aside s
  cases h with
  | nothing => exact .inl ⟨rfl, rfl⟩
  | event c e => exact .inl (haside _ (hP.partEvent s e (.refl s)))
  | passFree p hr => exact .inl (haside _ (hP.lineStep s.lineStep_passFree (.refl s)))
  | powerOn ram => exact .inr (.inl ⟨ram, rfl, rfl⟩)
  | runctl c lanes data hc => exact .inr (.inr ⟨lanes, data, hc, rfl⟩)
  | attnctl c lanes data =>
    refine .inl ?_
    unfold State.writeAttnctl
    split
    · exact ⟨rfl, rfl⟩
    · split <;> exact ⟨rfl, rfl⟩
  | tally c t after =>
    rw [State.operateTally_eq]
    exact .inl ⟨rfl, rfl⟩
  | hostWrite half lanes data =>
    exact .inl (State.hostWrite_keeps (P := fun u => u.clock.running = s.clock.running ∧ u.bus.held = s.bus.held) _ lanes data
      ⟨rfl, rfl⟩ (fun _ _ => ⟨rfl, rfl⟩) fun _ _ _ hu => hu)
  | samplePeriod line hr =>
    refine .inl ?_
    unfold State.advanceClock
    dsimp only
    split <;> split <;> exact ⟨rfl, rfl⟩
  | sweep work between ht => exact .inl (haside _ (hP.sweepStep work between (hP.undue _ (.refl s))))

/-- A write of RUNCTL ends RUNNING by its RESET alone, begins it by its RUN alone, and does neither while RST# is low. -/
theorem State.writeRunctl_running (s : State) (lanes : Lanes) (data : Half) :
    (s.writeRunctl lanes data = s) ∨ s.bus.held = false ∧ lanes.low = true ∧ (s.writeRunctl lanes data).bus.held = false ∧
      (s.clock.running = true → (s.writeRunctl lanes data).clock.running = false → data.getLsbD 1 = true) ∧
      (s.clock.running = false → (s.writeRunctl lanes data).clock.running = true → data.getLsbD 0 = true) := by
  cases hb : s.bus.held || !lanes.low with
  | true => exact .inl (State.writeRunctl_discarded (by simpa using hb) data)
  | false =>
    simp only [Bool.or_eq_false_iff, Bool.not_eq_false'] at hb
    obtain ⟨hheld, hlow⟩ := hb
    refine .inr ⟨hheld, hlow, ?_⟩
    cases h1 : data.getLsbD 1 with
    | true =>
      rw [State.writeRunctl_reset hheld hlow h1]
      exact ⟨rfl, fun _ _ => rfl, fun _ hrun => nomatch hrun⟩
    | false =>
      rw [State.writeRunctl_fields hheld hlow h1]
      cases h0 : data.getLsbD 0 && !s.clock.running with
      | true =>
        simp only [Bool.and_eq_true, Bool.not_eq_true'] at h0
        exact ⟨hheld, fun hr => absurd (hr.symm.trans h0.2) (by decide), fun _ _ => h0.1⟩
      | false => exact ⟨hheld, fun hr hn => absurd (hr.symm.trans hn) (by decide), fun hn hr => absurd (hr.symm.trans hn) (by decide)⟩

/-- Settles O9: no event in HALTED, and RUNNING changed by nothing but a power-on reset and a write of RUNCTL. -/
theorem haltedPartTakesNoEvent : Obligations.HaltedPartTakesNoEvent := by
  refine ⟨fun c s hc h => exec_halted hc h, fun s t c hwf h => ?_⟩
  rcases (exec_effect h).running with ⟨hrun, hheld⟩ | ⟨ram, rfl, rfl⟩ | ⟨lanes, data, hc, rfl⟩
  · rw [hrun, hheld]
    exact ⟨fun h h' => absurd (h.symm.trans h') (by decide), fun h h' => absurd (h.symm.trans h') (by decide), id⟩
  · have hhalted : (s.afterPowerOn ram).clock.running = false := by cases ram <;> rfl
    rw [hhalted]
    exact ⟨fun _ _ => .inl ⟨ram, rfl⟩, fun _ h' => absurd h' (by decide), fun _ _ => rfl⟩
  · have hrow : c = .softReset lanes data ∨ c = .run lanes data ∨ c = .guardClear lanes data := by
      rcases hc with hc | hc | hc | rfl
      · exact .inl hc
      · exact .inr (.inl hc)
      · exact .inr (.inr hc)
      · cases hwf
    rcases s.writeRunctl_running lanes data with hsame | ⟨hheld, hlow, hheld', hstop, hstart⟩
    · rw [hsame]
      exact ⟨fun h h' => absurd (h.symm.trans h') (by decide), fun h h' => absurd (h.symm.trans h') (by decide), id⟩
    · exact ⟨fun h h' => .inr ⟨lanes, data, hrow, hlow, hstop h h'⟩,
        fun h h' => ⟨hheld, lanes, data, hrow, hlow, hstart h h'⟩, fun _ h' => absurd (hheld'.symm.trans h') (by decide)⟩

/-! ### Posting stamps left (R9, R12) -/

/-- Memory is in its form, and so is the keeping if B has a cell; of the cells of A a posting stamp stands on kept cells of B alone. -/
structure State.Taken (A B : CellNo → Prop) (s : State) : Prop where
  wf : s.mem.wf = true
  rising : (∃ n, B n) → tableRising s.ex.keeping = true
  kept : ∀ n, A n → isPosting (s.stamp n) = true → B n ∧ s.isKept n.val = true

section Taken

variable {A B : CellNo → Prop} {s : State}

theorem State.Taken.setKept (h : s.Taken A B) (n : CellNo) (k : Kept) : (s.setKept n k).Taken A B where
  wf := h.wf
  rising := fun hB => tableRising_put _ _ (h.rising hB)
  kept := fun m hm hp => by
    by_cases e : m = n
    · rw [e, State.isKept, State.keptAt_setKept_same]
      exact ⟨e ▸ (h.kept m hm hp).1, rfl⟩
    · rw [State.isKept, State.keptAt_setKept_other _ _ _ fun hv => e (Fin.ext hv)]
      exact h.kept m hm hp

theorem State.Taken.putCell (h : s.Taken A B) (n : CellNo) (off : Nat) (bs : List Byte) : (s.putCell n off bs).Taken A B where
  wf := Memory.wf_writeList bs _ _ h.wf
  rising := h.rising
  kept := fun m hm hp => h.kept m hm (by
    have hread : (s.putCell n off bs).stamp m = s.stamp m :=
      Memory.read_writeList_outside bs s.mem _ _ h.wf (.inl (val_lt_cellAddr m n off))
    rwa [hread] at hp)

/-- A stamp that posts nothing is written. -/
theorem State.Taken.putStamp (h : s.Taken A B) (n : CellNo) {b : Byte} (hb : isPosting b = false) :
    (s.putByte n.val b).Taken (fun m => A m ∨ m = n) B where
  wf := s.mem.wf_write _ _ h.wf
  rising := h.rising
  kept := fun m hm hp => by
    by_cases e : m = n
    · have hread : (s.putByte n.val b).stamp n = b := s.mem.read_write_same b h.wf (by omega)
      rw [e, hread, hb] at hp
      cases hp
    · have hread : (s.putByte n.val b).stamp m = s.stamp m := s.mem.read_write_other b h.wf fun hv => e (Fin.ext hv)
      rw [hread] at hp
      exact h.kept m (hm.resolve_right e) hp

theorem State.Taken.mono {C : CellNo → Prop} (h : s.Taken A B) (hC : ∀ n, C n → A n) : s.Taken C B :=
  { h with kept := fun n hn => h.kept n (hC n hn) }

theorem State.Taken.handOver (h : s.Taken A B) (n : CellNo) {b : Byte} (hb : isPosting b = false) : (s.handOver n b).Taken A B where
  wf := s.mem.wf_write _ _ h.wf
  rising := fun hB => tableRising_drop _ (h.rising hB)
  kept := fun m hm hp => by
    have hput := (h.putStamp n hb).kept m (.inl hm) hp
    by_cases e : m = n
    · have hread : (s.handOver n b).stamp n = b := s.stamp_handOver_same n b h.wf
      rw [e, hread, hb] at hp
      cases hp
    · rw [State.isKept, State.keptAt_handOver _ _ _ _ (h.rising ⟨m, hput.1⟩), if_neg fun hv => e (Fin.ext hv)]
      exact hput

theorem State.Taken.closeSheet (h : s.Taken A B) : s.closeSheet.Taken A B := by
  cases hc : s.marks.sheet with
  | none => rwa [State.closeSheet_none hc]
  | some c =>
    have hout := (h.putCell c 0 (byteOf s.marks.count :: List.replicate 31 0)).handOver c (b := stampOutMarks) rfl
    rw [State.closeSheet_some hc]
    exact { hout with kept := hout.kept }

theorem State.Taken.writeMark (h : s.Taken A B) (m : Mark) : (s.writeMark m).Taken A B := by
  cases hc : s.marks.sheet with
  | none => rwa [State.writeMark_none m hc]
  | some c =>
    have hput := h.putCell c (32 + 16 * s.marks.count) m.record
    have hrecord : (s.recordMark c m).Taken A B := { hput with kept := hput.kept }
    rw [State.writeMark_some m hc]
    split
    · exact hrecord.closeSheet
    · exact hrecord

theorem State.Taken.openSheet {u : State} (h : s.Taken A B) (ho : s.openSheet = some u) : u.Taken A B := by
  obtain ⟨c, rest, -, rfl⟩ := State.openSheet_eq ho
  have hset := h.setKept c { role := .markSheet, clash := ((s.keptAt c.val).map Kept.clash).getD false }
  exact { hset with kept := hset.kept }

/-- Whatever the part does, it puts a posting stamp nowhere, and takes none off the keeping but with its stamp. -/
theorem keptByPart_taken (A B : CellNo → Prop) : KeptByPart (State.Taken A B) where
  frame := fun s t hm hex _ _ h => ⟨hm ▸ h.wf, hex ▸ h.rising, by
    unfold State.stamp State.byteAt State.isKept State.keptAt
    rw [hm, hex]
    exact h.kept⟩
  putCell := fun _ n off bs h => h.putCell n off bs
  stamp := fun _ n h => (h.putStamp n rfl).mono fun _ => .inl
  handOver := fun _ n _ hb h => h.handOver n hb
  setKept := fun _ n k h => h.setKept n k
  posts := fun _ _ h => ⟨h.wf, h.rising, h.kept⟩
  claim := fun _ _ _ _ h => ⟨h.wf, h.rising, h.kept⟩
  join := fun _ _ _ h => ⟨h.wf, h.rising, h.kept⟩
  reserve := fun _ _ h => ⟨h.wf, h.rising, h.kept⟩
  giveMark := State.giveMark_keeps (fun _ m h => h.writeMark m) (fun _ _ _ ho h => h.openSheet ho)
    fun _ _ _ _ _ h => ⟨h.wf, h.rising, h.kept⟩
  markBoundary := State.markBoundary_keeps (fun _ m h => h.writeMark m) (fun _ _ _ ho h => h.openSheet ho)
    (fun _ _ _ _ _ h => ⟨h.wf, h.rising, h.kept⟩) fun _ h => h.closeSheet

/-- A take settles its own cell: 21h stands on it before it is dispatched. -/
theorem State.Taken.takeCell (h : s.Taken A B) (n : CellNo) (posted : Byte) :
    (s.takeCell n posted).Taken (fun m => A m ∨ m = n) B := by
  have hP := keptByPart_taken (fun m => A m ∨ m = n) B
  have hstamped := ((keptByPart_taken A B).sweepWork h).putStamp n (b := stampKept) rfl
  have htaken : ∀ k v, (((s.sweepWork.putByte n.val stampKept).setKept n k).setTally .posts v).Taken (fun m => A m ∨ m = n) B :=
    fun k v => hP.posts _ v (hstamped.setKept n k)
  exact hP.dispatch n posted (htaken _ _)

/-- A stamp examined is settled, and those examined before it stay so. -/
theorem State.Taken.examine {acc : State × Bool} (h : acc.1.Taken A fun _ => True) (between : List (CellNo × PartEvent)) (n : CellNo) :
    (State.examine between acc n).1.Taken (fun m => A m ∨ m = n) fun _ => True := by
  have hP := keptByPart_taken A fun _ => True
  have hu := State.eventsBefore_keeps hP.partEvent between n acc.1 h
  unfold State.examine
  dsimp only
  split
  · split
    · next k hk =>
      have hall : (acc.1.eventsBefore between n).Taken (fun m => A m ∨ m = n) fun _ => True :=
        { hu with kept := fun m hm hp => hm.elim (fun hm => hu.kept m hm hp) fun hm => ⟨trivial, by rw [hm, State.isKept, hk]; rfl⟩ }
      exact (keptByPart_taken _ _).clash n k _ hall
    · exact hu.takeCell n _
  · next hno =>
    exact { hu with kept := fun m hm hp => hm.elim (fun hm => hu.kept m hm hp) fun hm => absurd (hm ▸ hp) hno }

theorem State.Taken.foldl_examine (between : List (CellNo × PartEvent)) (ns : List CellNo) : ∀ (A : CellNo → Prop)
    (acc : State × Bool), (acc.1.Taken A fun _ => True) →
      (ns.foldl (State.examine between) acc).1.Taken (fun m => A m ∨ m ∈ ns) fun _ => True := by
  induction ns with
  | nil => exact fun A acc h => h.mono fun m hm => hm.elim id nofun
  | cons n ns ih =>
    intro A acc h
    refine (ih _ _ (h.examine between n)).mono fun m hm => ?_
    rcases hm with hm | hm
    · exact .inl (.inl hm)
    · rcases List.mem_cons.mp hm with hm | hm
      · exact .inl (.inr hm)
      · exact .inr hm

end Taken

theorem isPosting_iff (b : Byte) : isPosting b = true ↔ b = 0x11 ∨ b = 0x12 ∨ b = 0x13 := by
  simp [isPosting, stampPostedParcel, stampPostedSheet, stampGranted, or_assoc]

/-- What a sweep leaves: its examinations, POSTS cleared when none took a cell, and no work. -/
theorem State.sweepStep_of_posts {s : State} (h : s.ex.posts ≠ 0) (work : List (List (Four Sample)))
    (between : List (CellNo × PartEvent)) : s.sweepStep work between =
      (let t := ({ s with clock := { s.clock with work := work } } : State).sweepAll between
       { t with clock := { t.clock with work := [] } }) := if_neg h

theorem State.Taken.sweepAll {s : State} (hm : s.mem.wf = true) (hk : tableRising s.ex.keeping = true)
    (between : List (CellNo × PartEvent)) : (s.sweepAll between).Taken (fun _ => True) fun _ => True := by
  have hstart : s.Taken (fun _ => False) fun _ => True := ⟨hm, fun _ => hk, nofun⟩
  have hall := (State.Taken.foldl_examine between (List.finRange 126) _ (s, false) hstart).mono (C := fun _ => True)
    fun n _ => .inr (List.mem_finRange n)
  unfold State.sweepAll
  dsimp only
  split
  · exact hall
  · exact (keptByPart_taken _ _).posts _ 0 hall

theorem exec_sweep_of_canTake {s : State} (h : s.canTake .sweep = true) (work : List (List (Four Sample)))
    (between : List (CellNo × PartEvent)) : exec (.sweep work between) s = .next ((s.undue .sweep).sweepStep work between) :=
  congrArg Host.Outcome.next (s.takeEvent_taken .sweep (fun u => u.sweepStep work between) h)

/-- Settles O12: the cells examined stay settled, and no command between two takes passes a scan instant. -/
theorem sweepLeavesNoRequestBehind : Obligations.SweepLeavesNoRequestBehind := by
  refine ⟨isPosting_iff, fun work between s ht hposts hm hk => ⟨_, exec_sweep_of_canTake ht work between, ?_, fun hsc => ?_⟩⟩
  · have hall := State.Taken.sweepAll (s := { s.undue .sweep with clock := { s.clock with work := work } }) hm hk between
    rw [State.sweepStep_of_posts (s := s.undue .sweep) hposts]
    exact fun n hp => (hall.kept n trivial hp).2
  · have hP := keptByPart_aside s
    have hoctet := (hP.sweepStep work between (hP.undue .sweep (.refl s))).octet
    have hlt := (((s.undue .sweep).sweepStep work between).clock.sc).isLt
    rw [BitVec.toNat_sub]
    omega

end Sys2Proof.Machine

/-! ## The sweep: idle, one request, two requests, and the general order of examination -/

namespace Sys2Proof.Machine

/-! ### Stamps examined with nothing between them -/

theorem State.eventsBefore_nil (s : State) (n : CellNo) : s.eventsBefore [] n = s := rfl

theorem examine_unposted {acc : State × Bool} {n : CellNo} (h : isPosting (acc.1.stamp n) = false) : State.examine [] acc n = acc := by
  unfold State.examine
  dsimp only
  rw [State.eventsBefore_nil, h]
  rfl

theorem examine_kept {u : State} {b : Bool} {n : CellNo} {k : Kept} (h : isPosting (u.stamp n) = true) (hk : u.keptAt n.val = some k) :
    State.examine [] (u, b) n = (u.clash n k (u.stamp n), b) := by
  unfold State.examine
  dsimp only
  rw [State.eventsBefore_nil, h, hk]
  rfl

theorem examine_request {u : State} {b : Bool} {n : CellNo} (h : isPosting (u.stamp n) = true) (hk : u.isKept n.val = false) :
    State.examine [] (u, b) n = (u.takeCell n (u.stamp n), true) := by
  have hnone : u.keptAt n.val = none := by simpa [State.isKept] using hk
  unfold State.examine
  dsimp only
  rw [State.eventsBefore_nil, h, hnone]
  rfl

/-- Cells that no stamp posts stay so through the examination of any other cell. -/
theorem State.Taken.examine_others {A : CellNo → Prop} {acc : State × Bool} (h : acc.1.Taken A fun _ => False) (n : CellNo) :
    (State.examine [] acc n).1.Taken A fun _ => False := by
  have hP := keptByPart_taken A fun _ => False
  unfold State.examine
  dsimp only
  rw [State.eventsBefore_nil]
  split
  · split
    · exact hP.clash n _ _ h
    · exact hP.takeCell n _ h
  · exact h

theorem State.Taken.unposted {A : CellNo → Prop} {s : State} (h : s.Taken A fun _ => False) {n : CellNo} (hn : A n) :
    isPosting (s.stamp n) = false := by
  cases hp : isPosting (s.stamp n) with
  | false => rfl
  | true => exact (h.kept n hn hp).1.elim

/-- A sweep with nothing between its takes examines to any effect the cells alone that a stamp posts at its beginning. -/
theorem foldl_examine_filter (p : CellNo → Bool) (ns : List CellNo) : ∀ acc : State × Bool,
    (acc.1.Taken (fun n => p n = false) fun _ => False) →
    ns.foldl (State.examine []) acc = (ns.filter p).foldl (State.examine []) acc := by
  induction ns with
  | nil => exact fun _ _ => rfl
  | cons n ns ih =>
    intro acc h
    cases hn : p n with
    | true => rw [List.filter_cons_of_pos hn, List.foldl_cons, List.foldl_cons, ih _ (h.examine_others n)]
    | false =>
      rw [List.filter_cons_of_neg (by simp [hn]), List.foldl_cons, examine_unposted (h.unposted hn), ih _ h]

theorem filter_finRange {m : Nat} {l : List (Fin m)} {p : Fin m → Bool} (hl : l.Pairwise (· < ·)) (hp : ∀ x, p x = true ↔ x ∈ l) :
    (List.finRange m).filter p = l :=
  List.Pairwise.eq_of_mem_iff ((List.sortedLT_finRange m).pairwise.filter p) hl fun x => by simp [hp]

section Sweep

variable {s : State} {work : List (List (Four Sample))}

/-- The state in which a sweep begins. -/
def State.sweepStart (s : State) (work : List (List (Four Sample))) : State :=
  { s with
    due := s.due.without .sweep
    clock := { s.clock with work := work } }

/-- The state that a sweep leaves, by the state and the flag that the last examination left. -/
def sweepEnd (r : State × Bool) : State :=
  { r.1 with
    ex := if r.2 = true then r.1.ex else { r.1.ex with posts := 0 }
    clock := { r.1.clock with work := [] } }

theorem sweepEnd_eq (r : State × Bool) : sweepEnd r =
    (let t := if r.2 then r.1 else r.1.setTally .posts 0
     { t with clock := { t.clock with work := [] } }) := by
  obtain ⟨u, b⟩ := r
  cases b <;> rfl

theorem exec_sweep_eq (ht : s.canTake .sweep = true) (hposts : s.ex.posts ≠ 0) (between : List (CellNo × PartEvent)) :
    exec (.sweep work between) s =
      .next (sweepEnd ((List.finRange 126).foldl (State.examine between) (s.sweepStart work, false))) := by
  rw [exec_sweep_of_canTake ht, State.sweepStep_of_posts (s := s.undue .sweep) hposts, sweepEnd_eq]
  unfold State.sweepAll
  rfl

/-- The requests of a sweep with nothing between its takes are the cells that its stamps post. -/
theorem exec_sweep_filter (ht : s.canTake .sweep = true) (hposts : s.ex.posts ≠ 0) (hm : s.mem.wf = true)
    {l : List CellNo} (hl : l.Pairwise (· < ·))
    (hothers : ∀ m, m ∉ l → isPosting (s.stamp m) = false) :
    exec (.sweep work []) s = .next (sweepEnd (l.foldl (State.examine []) (s.sweepStart work, false))) := by
  have htaken : (s.sweepStart work).Taken (fun n => decide (n ∈ l) = false) fun _ => False :=
    ⟨hm, fun hB => hB.elim nofun, fun n hn hp => absurd ((hothers n (by simpa using hn)).symm.trans hp) (by decide)⟩
  rw [exec_sweep_eq ht hposts, foldl_examine_filter _ _ _ htaken, filter_finRange hl fun x => by simp]

/-! ### The idle sweep (R11, R12) -/

theorem State.sweepWork_nil (h : s.clock.work = []) : s.sweepWork = s := by
  simp only [State.sweepWork, h]

theorem State.clash_again {n : CellNo} {k : Kept} (h : k.clash = true) (posted : Byte) : s.clash n k posted = s := if_pos h

theorem State.clash_first {n : CellNo} {k : Kept} (h : k.clash = false) (posted : Byte) : s.clash n k posted =
    (s.sweepWork.setKept n { role := k.role, clash := true }).giveMark
      { kind := .stampClash, line := 0xFF, detail16 := BitVec.ofNat 16 n.val, time := s.sweepWork.clock.sc,
        detail32 := BitVec.ofNat 32 posted.toNat } := by
  have hwide : posted.setWidth 32 = BitVec.ofNat 32 posted.toNat := (BitVec.ofNat_toNat 32 posted).symm
  unfold State.clash
  rw [h, if_neg Bool.false_ne_true, ← hwide]
  exact congrArg (State.giveMark _) rfl

/-- What an idle sweep leaves of the state it began in: what no clash touches, and without work what no sample period does. -/
structure State.SweptIdle (s t : State) : Prop where
  chan : t.chan = s.chan
  cap : t.cap = s.cap
  ring : t.ring = s.ring
  arb : t.arb = s.arb
  verdict : t.verdict = s.verdict
  bus : t.bus = s.bus
  pending : t.pending = s.pending
  due : t.due = s.due
  lines : s.clock.work = [] → t.port = s.port ∧ t.ident = s.ident ∧ t.tone = s.tone ∧ t.clock = s.clock

theorem State.SweptIdle.refl (s : State) : s.SweptIdle s := ⟨rfl, rfl, rfl, rfl, rfl, rfl, rfl, rfl, fun _ => ⟨rfl, rfl, rfl, rfl⟩⟩

theorem State.SweptIdle.trans {t u : State} (h : s.SweptIdle t) (g : t.SweptIdle u) : s.SweptIdle u := by
  refine ⟨g.chan.trans h.chan, g.cap.trans h.cap, g.ring.trans h.ring, g.arb.trans h.arb, g.verdict.trans h.verdict,
    g.bus.trans h.bus, g.pending.trans h.pending, g.due.trans h.due, fun hw => ?_⟩
  obtain ⟨hport, hident, htone, hclock⟩ := h.lines hw
  obtain ⟨hport', hident', htone', hclock'⟩ := g.lines (by rw [hclock, hw])
  exact ⟨hport'.trans hport, hident'.trans hident, htone'.trans htone, hclock'.trans hclock⟩

theorem State.sweptIdle_clash (s : State) (n : CellNo) (k : Kept) (posted : Byte) : s.SweptIdle (s.clash n k posted) := by
  cases h : k.clash with
  | true => rw [State.clash_again h]; exact .refl s
  | false =>
    rw [State.clash_first h]
    refine ⟨?_, ?_, ?_, ?_, ?_, ?_, ?_, ?_, fun hw => ?_⟩
    · rw [State.giveMark_chan]; exact s.sweepWork_chan
    · rw [State.giveMark_cap]; exact s.sweepWork_cap
    · rw [State.giveMark_ring]; exact s.sweepWork_ring
    · rw [State.giveMark_arb]; exact s.sweepWork_arb
    · rw [State.giveMark_verdict]; exact s.sweepWork_verdict
    · rw [State.giveMark_bus]; exact s.sweepWork_bus
    · rw [State.giveMark_pending]; exact s.sweepWork_pending
    · rw [State.giveMark_due]; exact s.sweepWork_due
    · rw [State.sweepWork_nil hw, State.giveMark_port, State.giveMark_ident, State.giveMark_tone, State.giveMark_clock]
      exact ⟨rfl, rfl, rfl, rfl⟩

/-- While posting stamps stand on kept cells alone, the examinations of a sweep take no cell. -/
theorem foldl_examine_idle (ns : List CellNo) : ∀ u : State, (u.Taken (fun _ => True) fun _ => True) →
    ∃ t, ns.foldl (State.examine []) (u, false) = (t, false) ∧ u.SweptIdle t := by
  induction ns with
  | nil => exact fun u _ => ⟨u, rfl, .refl u⟩
  | cons n ns ih =>
    intro u h
    cases hp : isPosting (u.stamp n) with
    | false =>
      rw [List.foldl_cons, examine_unposted (acc := (u, false)) hp]
      exact ih u h
    | true =>
      obtain ⟨k, hk⟩ := Option.isSome_iff_exists.mp (h.kept n trivial hp).2
      obtain ⟨t, ht, hidle⟩ := ih _ ((keptByPart_taken _ _).clash n k (u.stamp n) h)
      rw [List.foldl_cons, examine_kept hp hk]
      exact ⟨t, ht, (u.sweptIdle_clash n k _).trans hidle⟩

theorem foldl_examine_clashed {b : Bool} (ns : List CellNo)
    (h : ∀ n : CellNo, isPosting (s.stamp n) = true → ∃ k, s.keptAt n.val = some k ∧ k.clash = true) :
    ns.foldl (State.examine []) (s, b) = (s, b) := by
  induction ns with
  | nil => rfl
  | cons n ns ih =>
    have hsame : State.examine [] (s, b) n = (s, b) := by
      cases hp : isPosting (s.stamp n) with
      | false => exact examine_unposted hp
      | true =>
        obtain ⟨k, hk, hclash⟩ := h n hp
        rw [examine_kept hp hk, State.clash_again hclash]
    rw [List.foldl_cons, hsame, ih]

/-- Settles O10: an idle sweep by the clashes it finds, of which a first one alone has an effect. -/
theorem idleSweepClearsPosts : Obligations.IdleSweepClearsPosts := by
  refine ⟨fun work between s ht hposts => ?_, fun work s ht hposts hm hk => ⟨fun hkept => ?_, fun n k hp hkeep hclash hothers => ?_,
    fun hall => ?_⟩⟩
  · rw [exec_sweep_of_canTake ht]
    exact congrArg _ (if_pos hposts)
  · obtain ⟨t, hfold, h⟩ := foldl_examine_idle (List.finRange 126) (s.sweepStart work) ⟨hm, fun _ => hk, fun n _ hp => ⟨trivial, hkept n hp⟩⟩
    rw [exec_sweep_eq ht hposts, hfold]
    refine ⟨_, rfl, rfl, h.chan, h.cap, h.ring, h.arb, h.verdict, h.bus, h.pending, h.due, fun hw => ?_⟩
    obtain ⟨hport, hident, htone, hclock⟩ := h.lines hw
    refine ⟨hport, hident, htone, ?_⟩
    show ({ t.clock with work := [] } : Clock) = _
    rw [hclock]
    rfl
  · rw [exec_sweep_filter (l := [n]) ht hposts hm (by simp) fun m hm => hothers m (by simpa using hm), List.foldl_cons, List.foldl_nil,
      examine_kept (u := s.sweepStart work) hp hkeep, State.clash_first hclash]
    rfl
  · rw [exec_sweep_eq ht hposts, foldl_examine_clashed (s := s.sweepStart work) (List.finRange 126) hall]
    rfl

end Sweep

/-! ### Requests taken (R8 to R10, R17) -/

/-- A cell as it is taken, before its dispatch: 21h on its stamp, kept in its role with its clash flag clear, and TAKE on POSTS (R9). -/
def State.withTaken (s : State) (n : CellNo) (role : Role) : State :=
  { s with
    mem := s.mem.write n.val 0x21
    ex := { s.ex with
      posts := if s.ex.posts = 0 then 0 else s.ex.posts - 1
      keeping := tablePut s.ex.keeping n.val { role := role, clash := false } } }

theorem State.takeCell_eq (s : State) (n : CellNo) (posted : Byte) : s.takeCell n posted =
    (s.sweepWork.withTaken n ((s.sweepWork.putByte n.val stampKept).roleAtTake n posted)).dispatch n posted := rfl

/-- The stamp written at a take leaves every other byte, whatever form memory is in. -/
theorem Memory.read_write_kept (m : Memory) {a a' : Nat} (ha : a < 65536) (h : a' ≠ a) : (m.write a stampKept).read a' = m.read a' := by
  have hput : m.write a stampKept = tablePut m a stampKept := by
    unfold Memory.write
    rw [if_neg (by omega), if_neg (by decide)]
  unfold Memory.read
  rw [hput, tableGet_put_other m _ h]

theorem Memory.write_write {m : Memory} (hm : m.wf = true) {a : Nat} (ha : a < 65536) (b c : Byte) :
    (m.write a b).write a c = m.write a c := by
  have hb := m.wf_write a b hm
  refine Memory.ext_read (Memory.wf_write _ a c hb) (m.wf_write a c hm) fun x => ?_
  rw [Memory.read_write hb c ha, Memory.read_write hm c ha, Memory.read_write hm b ha]
  split <;> rfl

theorem tableDrop_put {α : Type} {t : List (Nat × α)} (ht : tableRising t = true) {a : Nat} (v : α) (h : tableGet t a = none) :
    tableDrop (tablePut t a v) a = t := by
  have hput := tableRising_put a v ht
  refine table_ext (tableRising_drop a hput) ht fun x => ?_
  rw [tableGet_drop _ _ hput, tableGet_put]
  split
  · next e => rw [e, h]
  · rfl

/-- A cell taken as GRANTED is kept as the newest spare while the stock holds fewer than 32. -/
theorem State.joinSpare_withTaken {s : State} {n : CellNo} (h : s.ex.spare.length < 32) : (s.withTaken n .spare).joinSpare n =
    { s with
      mem := s.mem.write n.val 0x21
      ex := { s.ex with
        posts := if s.ex.posts = 0 then 0 else s.ex.posts - 1
        keeping := tablePut s.ex.keeping n.val { role := .spare, clash := false }
        spare := s.ex.spare ++ [n] } } := by
  have hkept : (s.withTaken n .spare).keptAt n.val = some { role := .spare, clash := false } := tableGet_put_same _ _ _
  have hrole : ∀ l, (({ s.withTaken n .spare with ex := { (s.withTaken n .spare).ex with spare := l } } : State).setRole n .spare) =
      ({ s.withTaken n .spare with ex := { (s.withTaken n .spare).ex with spare := l } } : State).setKept n
        { role := .spare, clash := false } := by
    intro l
    unfold State.setRole
    have : ({ s.withTaken n .spare with ex := { (s.withTaken n .spare).ex with spare := l } } : State).keptAt n.val =
      some { role := .spare, clash := false } := hkept
    rw [this]
    rfl
  have hroom : (s.withTaken n .spare).ex.spare.length < 32 := h
  unfold State.joinSpare
  rw [if_pos hroom, hrole]
  unfold State.setKept
  show ({ s with
      mem := s.mem.write n.val 0x21
      ex := { s.ex with
        posts := if s.ex.posts = 0 then 0 else s.ex.posts - 1
        keeping := tablePut (tablePut s.ex.keeping n.val { role := .spare, clash := false }) n.val { role := .spare, clash := false }
        spare := s.ex.spare ++ [n] } } : State) = _
  rw [tablePut_put]

/-- With 32 spare cells it goes back as RETURNED at once. -/
theorem State.joinSpare_full {s : State} {n : CellNo} (hm : s.mem.wf = true) (hk : tableRising s.ex.keeping = true)
    (hn : s.isKept n.val = false) (h : 32 ≤ s.ex.spare.length) : (s.withTaken n .spare).joinSpare n =
    { s with
      mem := s.mem.write n.val 0x33
      ex := { s.ex with
        posts := if s.ex.posts = 0 then 0 else s.ex.posts - 1
        ready := if s.ex.ready = 255 then 255 else s.ex.ready + 1 } } := by
  have hnone : s.keptAt n.val = none := by simpa [State.isKept] using hn
  have hfull : ¬ (s.withTaken n .spare).ex.spare.length < 32 := Nat.not_lt.mpr h
  unfold State.joinSpare
  rw [if_neg hfull]
  show ({ s with
      mem := (s.mem.write n.val 0x21).write n.val 0x33
      ex := { s.ex with
        posts := if s.ex.posts = 0 then 0 else s.ex.posts - 1
        keeping := tableDrop (tablePut s.ex.keeping n.val { role := .spare, clash := false }) n.val
        ready := if s.ex.ready = 255 then 255 else s.ex.ready + 1 } } : State) = _
  rw [Memory.write_write hm (by omega), tableDrop_put hk _ hnone]

theorem State.takeCell_parcel (s : State) (n : CellNo) : s.takeCell n 0x11 =
    (s.sweepWork.withTaken n ((s.sweepWork.putByte n.val stampKept).roleAtTake n 0x11)).dispatchParcel n := rfl

theorem State.takeCell_sheet (s : State) (n : CellNo) : s.takeCell n 0x12 = (s.sweepWork.withTaken n .sheet).runSheet n := rfl

theorem State.takeCell_granted (s : State) (n : CellNo) : s.takeCell n 0x13 = (s.sweepWork.withTaken n .spare).joinSpare n := rfl

/-- The role in which a posted parcel is taken is that of the channel its header names. -/
theorem State.roleAtTake_parcel {s : State} {n : CellNo} {ch : LineNo} (h : (s.cellByte n 0).toNat = ch.val) :
    (s.sweepWork.putByte n.val stampKept).roleAtTake n 0x11 = .parcel ch 0 := by
  have hread : (s.sweepWork.putByte n.val stampKept).cellByte n 0 = s.cellByte n 0 := by
    have := s.sweepWork.mem.read_write_kept (a := n.val) (a' := cellAddr n 0) (by omega) (val_lt_cellAddr n n 0).ne'
    rw [State.sweepWork_mem] at this
    simpa [State.cellByte, State.byteAt] using this
  show Role.parcel ((lineOf ((s.sweepWork.putByte n.val stampKept).cellByte n 0).toNat).getD 0) 0 = _
  rw [hread, h, lineOf_val]
  rfl

section Requests

variable {s : State} {work : List (List (Four Sample))}

/-- A sweep that finds one request and nothing else is its take. -/
theorem exec_sweep_one (ht : s.canTake .sweep = true) (hposts : s.ex.posts ≠ 0) (hm : s.mem.wf = true)
    {n : CellNo} (hp : isPosting (s.stamp n) = true) (hn : s.isKept n.val = false)
    (hothers : ∀ m, m ≠ n → isPosting (s.stamp m) = false) :
    exec (.sweep work []) s = .next (sweepEnd ((s.sweepStart work).takeCell n (s.stamp n), true)) := by
  rw [exec_sweep_filter (l := [n]) ht hposts hm (by simp) fun m hm => hothers m (by simpa using hm), List.foldl_cons, List.foldl_nil,
    examine_request (u := s.sweepStart work) hp hn]
  rfl

/-- Of two requests the lower cell's is taken first, and the other in the state that leaves. -/
theorem exec_sweep_two (ht : s.canTake .sweep = true) (hposts : s.ex.posts ≠ 0) (hm : s.mem.wf = true) {a b : CellNo} (hab : a < b)
    (hp : isPosting (s.stamp a) = true) (hn : s.isKept a.val = false) (hothers : ∀ m, m ≠ a → m ≠ b → isPosting (s.stamp m) = false)
    {t : State} (he : (s.sweepStart work).takeCell a (s.stamp a) = t) (hp' : isPosting (t.stamp b) = true) (hn' : t.isKept b.val = false) :
    exec (.sweep work []) s = .next (sweepEnd (t.takeCell b (t.stamp b), true)) := by
  have hsorted : [a, b].Pairwise (· < ·) := by simpa using hab
  rw [exec_sweep_filter (l := [a, b]) ht hposts hm hsorted fun m hm => hothers m (by grind) (by grind), List.foldl_cons, List.foldl_cons,
    List.foldl_nil, examine_request (u := s.sweepStart work) hp hn]
  show Host.Outcome.next (sweepEnd (State.examine [] ((s.sweepStart work).takeCell a (s.stamp a), true) b)) = _
  rw [he, examine_request hp' hn']

theorem State.eventsBefore_eq_filter (s : State) (between : List (CellNo × PartEvent)) (n : CellNo) :
    s.eventsBefore between n = (between.filter fun e => e.1 == n).foldl (fun v e => v.partEvent e.2) s := by
  unfold State.eventsBefore
  rw [List.foldl_filter]
  simp only [beq_iff_eq]

/-- A stamp examined, after the events that fall before it. -/
theorem examine_eq (between : List (CellNo × PartEvent)) (acc : State × Bool) (n : CellNo) : State.examine between acc n =
    (let u := (between.filter fun e => e.1 == n).foldl (fun v e => v.partEvent e.2) acc.1
     if isPosting (u.stamp n) = true then
       if u.isKept n.val = true then ((u.keptAt n.val).elim u (fun k => u.clash n k (u.stamp n)), acc.2)
       else (u.takeCell n (u.stamp n), true)
     else (u, acc.2)) := by
  unfold State.examine
  rw [State.eventsBefore_eq_filter]
  dsimp only
  generalize (between.filter fun e => e.1 == n).foldl (fun v e => v.partEvent e.2) acc.1 = u
  split
  · unfold State.isKept
    cases u.keptAt n.val <;> rfl
  · rfl

/-- Settles O11: one request, the take by its stamp, a GRANTED cell with room and without, two requests, and the general order. -/
theorem sweepTakesThePostedCell : Obligations.SweepTakesThePostedCell := by
  refine ⟨fun s n work ht hposts hm hp hn hothers => ?_, fun s n => ⟨⟨_, s.takeCell_parcel n, fun ch hch => State.roleAtTake_parcel hch⟩,
    s.takeCell_sheet n, s.takeCell_granted n⟩, fun s n ht hposts hm hk hstamp hn hothers => ?_,
    fun s a b work ht hposts hm hab hp hn hothers => ?_, fun s work between ht hposts => ?_, fun s p cause hook trip => ?_⟩
  · rw [exec_sweep_one ht hposts hm hp hn hothers]
    rfl
  · have hp : isPosting (s.stamp n) = true := by rw [hstamp]; rfl
    rw [exec_sweep_one ht hposts hm hp hn hothers, hstamp, State.takeCell_granted, State.sweepWork_nil (s := s.sweepStart []) rfl]
    refine ⟨fun hroom => ?_, fun hfull => ?_⟩
    · rw [State.joinSpare_withTaken (s := s.sweepStart []) hroom]
      show Host.Outcome.next ({ s with
        due := s.due.without .sweep
        clock := { s.clock with work := [] }
        mem := s.mem.write n.val 0x21
        ex := { s.ex with
          posts := if s.ex.posts = 0 then 0 else s.ex.posts - 1
          keeping := tablePut s.ex.keeping n.val { role := .spare, clash := false }
          spare := s.ex.spare ++ [n] } } : State) = _
      rw [if_neg hposts]
    · rw [State.joinSpare_full (s := s.sweepStart []) hm hk hn hfull]
      show Host.Outcome.next ({ s with
        due := s.due.without .sweep
        clock := { s.clock with work := [] }
        mem := s.mem.write n.val 0x33
        ex := { s.ex with
          posts := if s.ex.posts = 0 then 0 else s.ex.posts - 1
          ready := if s.ex.ready = 255 then 255 else s.ex.ready + 1 } } : State) = _
      rw [if_neg hposts]
  · intro t hp' hn'
    rw [exec_sweep_two (work := work) (t := t) ht hposts hm hab hp hn hothers rfl hp' hn']
    rfl
  · simp only [exec_sweep_eq ht hposts, ← examine_eq]
    rfl
  · exact ⟨rfl, rfl, rfl, rfl, rfl, rfl, rfl, rfl, rfl, rfl⟩

end Requests

end Sys2Proof.Machine

/-! ## Order sheets -/

namespace Sys2Proof.Machine

theorem State.runEntries_eq (n : CellNo) (count left : Nat) : ∀ (k : Nat) (s : State),
    s.runEntries n count left k = (List.range' k left).foldl (fun u j => u.runEntry n count j) s := by
  induction left with
  | zero => exact fun k s => rfl
  | succ left ih =>
    intro k s
    rw [List.range'_succ, List.foldl_cons]
    exact ih (k + 1) _

theorem State.runSheet_refused {s : State} {n : CellNo} (h : (s.cellByte n 0).toNat = 0 ∨ 16 < (s.cellByte n 0).toNat) :
    s.runSheet n = s.refuseCell n 0x08 := if_pos h

theorem State.runSheet_run {s : State} {n : CellNo} (h0 : 1 ≤ (s.cellByte n 0).toNat) (h16 : (s.cellByte n 0).toNat ≤ 16) :
    s.runSheet n = ((List.range (s.cellByte n 0).toNat).foldl (fun u k => u.runEntry n (s.cellByte n 0).toNat k) s).handOver n 0x34 := by
  rw [List.range_eq_range', ← State.runEntries_eq]
  exact if_neg (by omega)

theorem BitVec.getLsbD_zero_eq_mod {w : Nat} (b : BitVec w) : b.getLsbD 0 = (b.toNat % 2 == 1) := by
  rw [BitVec.getLsbD, Nat.testBit_zero]
  rfl

theorem State.withTarget_of_gt {s : State} {t : Nat} (h : 3 < t) (order : LineNo → State × Answer) :
    s.withTarget t order = (s, .badTarget) := by
  unfold State.withTarget
  rw [lineOf_of_gt h]

theorem State.withTarget_val (s : State) (p : LineNo) (order : LineNo → State × Answer) : s.withTarget p.val order = order p := by
  unfold State.withTarget
  rw [lineOf_val]

section RunOrder

variable (s : State) (n : CellNo) (count k : Nat)

/-- The target byte of an entry above 3: every order that has a target refuses it. -/
theorem State.runOrder_badTarget (h1 : 1 ≤ (s.entryByte n k 0).toNat) (h13 : (s.entryByte n k 0).toNat ≤ 13)
    (ht : 3 < (s.entryByte n k 1).toNat) : s.runOrder n count k = (s, .badTarget) := by
  unfold State.runOrder
  dsimp only
  generalize (s.entryByte n k 0).toNat = code at h1 h13
  interval_cases code <;> exact State.withTarget_of_gt ht _

theorem State.runOrder_unknown (h : (s.entryByte n k 0).toNat = 0 ∨ 14 < (s.entryByte n k 0).toNat) :
    s.runOrder n count k = (s, .unknown) := by
  unfold State.runOrder
  dsimp only
  rcases h with h | h
  · rw [h]
    rfl
  · obtain ⟨j, hj⟩ : ∃ j, (s.entryByte n k 0).toNat = j + 15 := ⟨_, (Nat.sub_add_cancel h).symm⟩
    rw [hj]
    rfl

/-- Settles O14: the sheet as a fold of its entries, and the match of an order code on each of its values. -/
theorem sheetsRunTheirOrders : Obligations.SheetsRunTheirOrders := by
  refine ⟨fun s n => ⟨State.runSheet_refused, State.runSheet_run⟩, ⟨rfl, rfl, rfl, rfl, rfl, rfl, rfl, rfl, rfl, rfl⟩, fun s n count k =>
    ⟨s.runOrder_badTarget n count k, s.runOrder_unknown n count k, fun h => ?_, fun p hp => ?_⟩⟩
  · unfold State.runOrder
    dsimp only
    rw [show (s.entryByte n k 0).toNat = 14 from h]
    rfl
  · have hflag : ∀ i, (s.entryByte n k i).getLsbD 0 = true ↔ (s.entryByte n k i).toNat % 2 = 1 := fun i => by
      rw [BitVec.getLsbD_zero_eq_mod, beq_iff_eq]
    have run : ∀ {order : LineNo → State × Answer}, s.runOrder n count k = s.withTarget (s.entryByte n k 1).toNat order →
        s.runOrder n count k = order p := fun {order} h => by rw [h, show (s.entryByte n k 1).toNat = p.val from hp, s.withTarget_val]
    refine ⟨fun h => ?_, fun h => ?_, fun h => ?_, fun h => ?_, fun h => ?_, fun h => ?_, fun h => ?_, fun h => ?_, fun h => ?_,
      fun h => ?_, fun h => ?_, fun h => ?_, fun h => ?_⟩
    · exact run (by unfold State.runOrder; dsimp only; rw [show (s.entryByte n k 0).toNat = _ from h]; rfl)
    · exact run (by unfold State.runOrder; dsimp only; rw [show (s.entryByte n k 0).toNat = _ from h]; rfl)
    · exact run (by unfold State.runOrder; dsimp only; rw [show (s.entryByte n k 0).toNat = _ from h]; rfl)
    · exact run (by unfold State.runOrder; dsimp only; rw [show (s.entryByte n k 0).toNat = _ from h]; rfl)
    · exact run (by unfold State.runOrder; dsimp only; rw [show (s.entryByte n k 0).toNat = _ from h]; rfl)
    · exact run (by unfold State.runOrder; dsimp only; rw [show (s.entryByte n k 0).toNat = _ from h]; rfl)
    · unfold State.runOrder
      dsimp only
      rw [show (s.entryByte n k 0).toNat = _ from h, show (s.entryByte n k 1).toNat = p.val from hp]
      simp only [hflag]
      exact s.withTarget_val p _
    · exact run (by unfold State.runOrder; dsimp only; rw [show (s.entryByte n k 0).toNat = _ from h]; rfl)
    · exact run (by unfold State.runOrder; dsimp only; rw [show (s.entryByte n k 0).toNat = _ from h]; rfl)
    · exact run (by unfold State.runOrder; dsimp only; rw [show (s.entryByte n k 0).toNat = _ from h]; rfl)
    · unfold State.runOrder
      dsimp only
      rw [show (s.entryByte n k 0).toNat = _ from h, show (s.entryByte n k 1).toNat = p.val from hp]
      simp only [hflag]
      exact s.withTarget_val p _
    · exact run (by unfold State.runOrder; dsimp only; rw [show (s.entryByte n k 0).toNat = _ from h]; rfl)
    · unfold State.runOrder
      dsimp only
      rw [show (s.entryByte n k 0).toNat = _ from h, show (s.entryByte n k 1).toNat = p.val from hp, BitVec.getLsbD_zero_eq_mod (s.entryByte n k 2)]
      exact s.withTarget_val p _

end RunOrder

end Sys2Proof.Machine

/-! ## Arrival: the trial runs, blocks placed and counted, the four kinds of parcel, and cells given back -/

namespace Sys2Proof.Machine

/-! ### The trial classification (R37) -/

theorem runsAfter_placeable {late early : Nat} {l : List BlockClass} (h : .placeable ∈ l) : runsAfter late early l = (0, 0) :=
  if_pos (List.any_eq_true.mpr ⟨_, h, rfl⟩)

theorem runsAfter_late {late early : Nat} {l : List BlockClass} (h : ∀ x ∈ l, x = .late) : runsAfter late early l = (late + 1, 0) := by
  unfold runsAfter
  rw [if_neg, if_pos]
  · exact List.all_eq_true.mpr fun x hx => by rw [h x hx]; rfl
  · rw [List.any_eq_true]
    rintro ⟨x, hx, hp⟩
    rw [h x hx] at hp
    cases hp

theorem runsAfter_early {late early : Nat} {l : List BlockClass} (hne : l ≠ []) (h : ∀ x ∈ l, x = .early) :
    runsAfter late early l = (0, early + 1) := by
  obtain ⟨y, hy⟩ := List.exists_mem_of_ne_nil l hne
  unfold runsAfter
  rw [if_neg, if_neg, if_pos]
  · exact List.all_eq_true.mpr fun x hx => by rw [h x hx]; rfl
  · rw [List.all_eq_true]
    intro hall
    have := hall y hy
    rw [h y hy] at this
    cases this
  · rw [List.any_eq_true]
    rintro ⟨x, hx, hp⟩
    rw [h x hx] at hp
    cases hp

theorem runsAfter_mixed {late early : Nat} {l : List BlockClass} (hlate : .late ∈ l) (hearly : .early ∈ l)
    (h : ∀ x ∈ l, x ≠ .placeable) : runsAfter late early l = (late, early) := by
  unfold runsAfter
  rw [if_neg, if_neg, if_neg]
  · exact fun hall => absurd (List.all_eq_true.mp hall _ hlate) (by decide)
  · exact fun hall => absurd (List.all_eq_true.mp hall _ hearly) (by decide)
  · rw [List.any_eq_true]
    exact fun ⟨x, hx, hp⟩ => h x hx (by simpa using hp)

/-- The kind that the late and early runs after a trial classification make of a parcel (R37). -/
def kindOfRuns (runs : Nat × Nat) : ParcelKind :=
  if 3 ≤ runs.1 then .resync false else if 3 ≤ runs.2 then .resync true else .ordinary

/-- A parcel that neither anchors nor re-anchors is judged by its trial classification. -/
theorem Channel.alignment_judged {c : Channel} {h : ParcelHeader} (hw : c.state ≠ .waiting)
    (hg : ¬ (c.state = .gap ∧ c.mode = .speech ∧ h.spurt = true)) {late early : Nat}
    (hruns : runsAfter c.lateRun c.earlyRun (h.blocks.map c.classify) = (late, early)) :
    c.alignment h = (kindOfRuns (late, early), { c with lateRun := late, earlyRun := early }) := by
  unfold Channel.alignment
  rw [if_neg hw, if_neg hg, hruns]
  rfl

theorem Channel.alignment_anchoring {c : Channel} (hw : c.state = .waiting) (h : ParcelHeader) :
    c.alignment h = (.anchoring, { c with lateRun := 0, earlyRun := 0 }) := if_pos hw

theorem Channel.alignment_reanchoring {c : Channel} {h : ParcelHeader} (hg : c.state = .gap) (hm : c.mode = .speech)
    (hs : h.spurt = true) : c.alignment h = (.reanchoring, { c with lateRun := 0, earlyRun := 0 }) := by
  unfold Channel.alignment
  rw [if_neg (by rw [hg]; nofun), if_pos ⟨hg, hm, hs⟩]

theorem State.resync_chan (s : State) (ch : LineNo) (early : Bool) (ts : Word) :
    (s.resync ch early ts).chan.get ch = (s.chan.get ch).moved ts (.resync early) := by
  have := s.moveCursor_chan ch (.resync early) ts
  rw [State.moveCursor] at this
  rw [this, Four.get_set_same]

/-- Settles O17: each outcome of the trial classification, and the channel that a resync leaves. -/
theorem runsFollowTheTrialClassification : Obligations.RunsFollowTheTrialClassification := by
  refine ⟨fun c h hprimary => ⟨fun hw => Channel.alignment_anchoring hw h, fun hg hm hs => Channel.alignment_reanchoring hg hm hs,
    fun hw hg => ⟨fun hall => ?_, fun hall => ?_, fun hex => ?_, fun hlate hearly hno hl he => ?_⟩⟩, fun s ch early ts => ?_⟩
  · rw [Channel.alignment_judged hw hg (runsAfter_late (by simpa using hall))]
    rfl
  · have hne : h.blocks.map c.classify ≠ [] := by
      intro he
      have := congrArg List.length he
      rw [List.length_map, h.blocks_length, List.length_nil] at this
      omega
    rw [Channel.alignment_judged hw hg (runsAfter_early hne (by simpa using hall))]
    rfl
  · rw [Channel.alignment_judged hw hg (runsAfter_placeable (by simpa using hex))]
    rfl
  · rw [Channel.alignment_judged hw hg (runsAfter_mixed (by simpa using hlate) (by simpa using hearly) (by simpa using hno))]
    unfold kindOfRuns
    rw [if_neg (Nat.not_le.mpr hl), if_neg (Nat.not_le.mpr he)]
  · rw [State.resync_chan]
    exact ⟨rfl, rfl⟩

/-! ### Counters and blocks (R35, R36, R42) -/

theorem Counter.index_lt (k : Counter) : k.index < 12 := by cases k <;> decide

theorem Counter.index_inj {k m : Counter} (h : k.index = m.index) : k = m := by
  revert h
  cases k <;> cases m <;> decide

theorem Channel.counter_bump_same {c : Channel} {k : Counter} (h : c.counters.length = 12) : (c.bump k).counter k = c.counter k + 1 := by
  show (c.counters.set k.index (c.counter k + 1)).getD k.index 0 = _
  rw [List.getD_eq_getElem _ _ (by rw [List.length_set, h]; exact k.index_lt), List.getElem_set_self]

theorem Channel.counter_bump_other (c : Channel) {k m : Counter} (h : m ≠ k) : (c.bump k).counter m = c.counter m := by
  show (c.counters.set k.index (c.counter k + 1)).getD m.index 0 = c.counters.getD m.index 0
  rw [List.getD_eq_getElem?_getD, List.getD_eq_getElem?_getD, List.getElem?_set_ne fun e => h (Counter.index_inj e.symm)]

/-- A counter's wrap sets its own rollover flag and leaves the others. -/
theorem Channel.rollover_bump (c : Channel) (k : Counter) (i : Nat) : (c.bump k).rollover.getLsbD i =
    (c.rollover.getLsbD i || (i == k.index && c.counter k == 0xFFFF)) := by
  have hlt := k.index_lt
  show (if c.counter k = 0xFFFF then c.rollover ||| (1#12 <<< k.index) else c.rollover).getLsbD i = _
  split
  · next h =>
    rw [h, BitVec.getLsbD_or, BitVec.getLsbD_shiftLeft]
    by_cases e : i = k.index
    · subst e
      simp [hlt]
    · have hi : (i == k.index) = false := beq_false_of_ne e
      rw [hi]
      by_cases hlow : i < k.index
      · simp [hlow]
      · have hbit : (1#12).getLsbD (i - k.index) = false := by
          rw [BitVec.getLsbD_one]
          simp
          omega
        rw [hbit]
        simp
  · next h =>
    rw [beq_false_of_ne h]
    simp

section Placement

variable (n : CellNo) (coding : Coding) (c : Channel) (made : Nat) (b : Block)

/-- A channel with a block counted as realigned when rounding moved it (R35). -/
def Channel.realignedFor (c : Channel) (b : Block) : Channel :=
  if (b.ts - c.cursor).toInt % 80 = 0 then c else c.bump .realignedBlocks

theorem Channel.realignedFor_eq (c : Channel) (b : Block) : ∃ cs r, c.realignedFor b = { c with counters := cs, rollover := r } := by
  unfold Channel.realignedFor
  split <;> exact ⟨_, _, rfl⟩

theorem Channel.placeBlock_late {n coding c made b} (h : roundedDistance (b.ts - c.cursor).toInt < 0) :
    Channel.placeBlock n coding (c, made) b = ((c.realignedFor b).bump .lateBlocks, made) := by
  unfold Channel.placeBlock
  dsimp only
  rw [show classOf (roundedDistance (rawDistance b.ts c.cursor)) = .late from classOf_of_late h]
  rfl

theorem Channel.placeBlock_early {n coding c made b} (h : 2560 ≤ roundedDistance (b.ts - c.cursor).toInt) :
    Channel.placeBlock n coding (c, made) b = ((c.realignedFor b).bump .earlyBlocks, made) := by
  unfold Channel.placeBlock
  dsimp only
  rw [show classOf (roundedDistance (rawDistance b.ts c.cursor)) = .early from classOf_of_early h]
  rfl

theorem Channel.placeBlock_duplicate {n coding c made b} (h0 : 0 ≤ roundedDistance (b.ts - c.cursor).toInt)
    (h : roundedDistance (b.ts - c.cursor).toInt < 2560) (hdup : ∃ e ∈ c.list, e.ts = (c.entryOf n coding b).ts) :
    Channel.placeBlock n coding (c, made) b = ((c.realignedFor b).bump .duplicateBlocks, made) := by
  have hbase : (if gridRemainder (rawDistance b.ts c.cursor) = 0 then c else c.bump .realignedBlocks) = c.realignedFor b := rfl
  obtain ⟨cs, r, hr⟩ := c.realignedFor_eq b
  obtain ⟨e, he, hts⟩ := hdup
  unfold Channel.placeBlock
  dsimp only
  rw [show classOf (roundedDistance (rawDistance b.ts c.cursor)) = .placeable from classOf_of_placeable h0 h, hbase, hr]
  exact if_pos (List.any_eq_true.mpr ⟨e, he, by exact beq_iff_eq.mpr hts⟩)

/-- A placeable block of a new timestamp makes its entry, and counts as recovered when it is redundant. -/
theorem Channel.placeBlock_new {n coding c made b} (h0 : 0 ≤ roundedDistance (b.ts - c.cursor).toInt)
    (h : roundedDistance (b.ts - c.cursor).toInt < 2560) (hnew : ∀ e ∈ c.list, e.ts ≠ (c.entryOf n coding b).ts) :
    Channel.placeBlock n coding (c, made) b =
      ({ (if b.origin = .redundant then (c.realignedFor b).bump .recoveredBlocks else c.realignedFor b) with
        list := insertEntry c.cursor (c.entryOf n coding b) c.list }, made + 1) := by
  have hbase : (if gridRemainder (rawDistance b.ts c.cursor) = 0 then c else c.bump .realignedBlocks) = c.realignedFor b := rfl
  obtain ⟨cs, r, hr⟩ := c.realignedFor_eq b
  have hany : ¬ (c.list.any (·.ts == (c.entryOf n coding b).ts) = true) := fun hany => by
    obtain ⟨e, he, hts⟩ := List.any_eq_true.mp hany
    exact hnew e he (beq_iff_eq.mp hts)
  unfold Channel.placeBlock
  dsimp only
  rw [show classOf (roundedDistance (rawDistance b.ts c.cursor)) = .placeable from classOf_of_placeable h0 h, hbase, hr]
  refine (if_neg hany).trans ?_
  split <;> rfl

end Placement

/-- Settles O18: the counters by their bump, and a block by its class. -/
theorem blockPlacementMakesAndCounts : Obligations.BlockPlacementMakesAndCounts := by
  refine ⟨rfl, fun c k hlen => ⟨rfl, ?_, ?_, fun m hm => c.counter_bump_other hm, ?_, fun i hi => ?_⟩, fun n coding c made b =>
    ⟨Channel.placeBlock_late, Channel.placeBlock_early, fun h0 h => ⟨fun hdup => ?_, fun hnew => ?_⟩⟩⟩
  · exact (List.length_set ..).trans hlen
  · rw [Channel.counter_bump_same hlen, BitVec.toNat_add]
    rfl
  · rw [Channel.rollover_bump]
    simp
  · rw [Channel.rollover_bump, beq_false_of_ne hi]
    simp
  · rw [Channel.placeBlock_duplicate h0 h hdup]
    rfl
  · rw [Channel.placeBlock_new h0 h hnew]
    refine ⟨rfl, ?_, insertEntry_perm _ _ _, fun hp => insertEntry_ascending hp fun x hx he => ?_⟩
    · rfl
    · exact hnew x hx (sub_left_injective (BitVec.toInt_inj.mp he))

/-! ### The four kinds of arrival (R30 to R33, R39) -/

/-- A parcel's blocks placed in a channel, its reference count set, and its cell returned when nothing names it (R35, R39). -/
def State.placed (s : State) (ch : LineNo) (n : CellNo) (coding : Coding) (bs : List Block) (c : Channel) : State :=
  let r := c.placeBlocks n coding bs
  let v := (s.setChan ch r.1).setRole n (.parcel ch r.2)
  if r.2 = 0 then v.handOver n 0x33 else v

theorem State.placeParcel_setChan (s : State) (ch : LineNo) (c : Channel) (n : CellNo) (coding : Coding) (bs : List Block) :
    (s.setChan ch c).placeParcel ch n coding bs = s.placed ch n coding bs c := by
  unfold State.placeParcel State.placed
  dsimp only
  rw [State.setChan_chan, Four.get_set_same, State.setChan_setChan]
  rfl

theorem Channel.delay_eq (c : Channel) : c.delay = match c.mode with
    | .speech => c.target
    | .steady => c.steady.getD c.target := rfl

section Arrival

variable {s : State} {ch : LineNo}

theorem State.arrive_anchoring (hw : (s.chan.get ch).state = .waiting) (n : CellNo) (coding : Coding) (h : ParcelHeader) :
    s.arrive ch n coding h = s.placed ch n coding h.blocks { s.chan.get ch with
      lateRun := 0, earlyRun := 0, prevTransit := some (s.now - h.ts)
      cursor := h.ts - BitVec.ofNat 32 (80 * (s.chan.get ch).delay), state := .flowing, hold := 0, excess := 0, trim := false } := by
  unfold State.arrive
  rw [Channel.alignment_anchoring hw]
  dsimp only [State.moveCursor]
  rw [State.setChan_chan, Four.get_set_same, State.setChan_setChan, State.placeParcel_setChan]
  rfl

theorem State.arrive_reanchoring (hg : (s.chan.get ch).state = .gap) (hm : (s.chan.get ch).mode = .speech) {h : ParcelHeader}
    (hs : h.spurt = true) {tp : Word} (htp : (s.chan.get ch).prevTransit = some tp) (n : CellNo) (coding : Coding) :
    s.arrive ch n coding h = s.placed ch n coding h.blocks (({ s.chan.get ch with lateRun := 0, earlyRun := 0 }.jitterUpdate
      (s.now - h.ts) tp).realign h.ts) := by
  unfold State.arrive
  rw [Channel.alignment_reanchoring hg hm hs]
  dsimp only [State.moveCursor]
  rw [State.setChan_chan, Four.get_set_same, State.setChan_setChan, State.placeParcel_setChan]
  unfold Channel.jitterStepFor
  dsimp only
  rw [htp]
  rfl

theorem State.arrive_ordinary {h : ParcelHeader} (ha : ((s.chan.get ch).alignment h).1 = .ordinary) {tp : Word}
    (htp : (s.chan.get ch).prevTransit = some tp) (n : CellNo) (coding : Coding) :
    s.arrive ch n coding h = s.placed ch n coding h.blocks ((((s.chan.get ch).alignment h).2).jitterUpdate (s.now - h.ts) tp) := by
  have htp' : ((s.chan.get ch).alignment h).2.prevTransit = some tp := by
    rw [Channel.alignment_fields]
    exact htp
  unfold State.arrive
  dsimp only
  rw [ha]
  dsimp only [State.moveCursor]
  rw [State.placeParcel_setChan]
  unfold Channel.jitterStepFor
  rw [htp']
  rfl

theorem State.arrive_resync {h : ParcelHeader} {early : Bool} (ha : ((s.chan.get ch).alignment h).1 = .resync early) (n : CellNo)
    (coding : Coding) : s.arrive ch n coding h =
      (let u := (s.setChan ch { ((s.chan.get ch).alignment h).2 with prevTransit := some (s.now - h.ts) }).resync ch early h.ts
       u.placed ch n coding h.blocks (u.chan.get ch)) := by
  unfold State.arrive
  dsimp only
  rw [ha]
  rfl

end Arrival

/-- Blocks placed keep all of a channel but its list and its counters, and every entry; the entries made are counted. -/
structure Channel.Filled (c : Channel) (r : Channel × Nat) : Prop where
  fields : r.1 = { c with list := r.1.list, counters := r.1.counters, rollover := r.1.rollover }
  entries : ∀ e ∈ c.list, e ∈ r.1.list
  length : r.1.list.length = c.list.length + r.2

theorem Channel.foldl_placeBlock_filled (c : Channel) (n : CellNo) (coding : Coding) (bs : List Block) {acc : Channel × Nat}
    (h : c.Filled acc) : c.Filled (bs.foldl (Channel.placeBlock n coding) acc) := by
  refine Channel.foldl_placeBlock_keeps (P := c.Filled) (fun b acc acc' hp h => ?_) bs acc h
  obtain ⟨hfields, hentries, hlength⟩ := h
  cases hp with
  | passed cs r =>
    refine ⟨?_, hentries, hlength⟩
    rw [hfields]
  | made cs r hclass hnew =>
    refine ⟨?_, fun e he => mem_insertEntry.mpr (.inr (hentries e he)), ?_⟩
    · rw [hfields]
    · show (insertEntry _ _ acc.1.list).length = _
      rw [(insertEntry_perm _ _ _).length_eq, List.length_cons, hlength]
      rfl

theorem Channel.filled_refl (c : Channel) : c.Filled (c, 0) := ⟨rfl, fun _ he => he, rfl⟩

/-- What blocks leave of a channel: the fold of their placements, FLOWING when a GAP channel gained an entry (R35). -/
theorem Channel.placeBlocks_eq (c : Channel) (n : CellNo) (coding : Coding) (bs : List Block) :
    (c.placeBlocks n coding bs).1 =
      if 0 < (c.placeBlocks n coding bs).2 ∧ c.state = .gap then
        { (bs.foldl (Channel.placeBlock n coding) (c, 0)).1 with state := .flowing }
      else (bs.foldl (Channel.placeBlock n coding) (c, 0)).1 := by
  have hstate : (bs.foldl (Channel.placeBlock n coding) (c, 0)).1.state = c.state :=
    by rw [(Channel.foldl_placeBlock_filled c n coding bs c.filled_refl).fields]
  unfold Channel.placeBlocks
  dsimp only
  rw [hstate]

theorem Channel.placeBlocks_length (c : Channel) (n : CellNo) (coding : Coding) (bs : List Block) :
    (c.placeBlocks n coding bs).1.list.length = c.list.length + (c.placeBlocks n coding bs).2 := by
  have hlen := (Channel.foldl_placeBlock_filled c n coding bs c.filled_refl).length
  rw [Channel.placeBlocks_eq]
  split <;> exact hlen

/-- The first block of a parcel that anchors a channel makes its entry with its own timestamp, F frames ahead (R32). -/
theorem Channel.placeBlocks_anchored {c : Channel} {ts : Word} {f : Nat} (hlist : c.list = []) (hf : f ≤ 30)
    (hcursor : c.cursor = ts - BitVec.ofNat 32 (80 * f)) (hs : c.state ≠ .gap) (n : CellNo) (coding : Coding) {b : Block}
    (hb : b.ts = ts) (bs : List Block) :
    (b.ts - c.cursor).toInt = 80 * f ∧
    (c.placeBlocks n coding (b :: bs)).1 = { c with
      list := (c.placeBlocks n coding (b :: bs)).1.list, counters := (c.placeBlocks n coding (b :: bs)).1.counters
      rollover := (c.placeBlocks n coding (b :: bs)).1.rollover } ∧
    { ts := ts, cell := n, block := b.index, coding := coding, origin := b.origin : Entry } ∈
      (c.placeBlocks n coding (b :: bs)).1.list := by
  have hdist : (b.ts - c.cursor).toInt = 80 * f := by
    have hsub : b.ts - c.cursor = BitVec.ofNat 32 (80 * f) := by rw [hb, hcursor]; exact sub_sub_cancel _ _
    have hnat : (BitVec.ofNat 32 (80 * f)).toNat = 80 * f := by
      rw [BitVec.toNat_ofNat]
      omega
    rw [hsub, BitVec.toInt_eq_toNat_of_lt (by omega), hnat]
    rfl
  have hrounded : roundedDistance (b.ts - c.cursor).toInt = 80 * f :=
    (roundedDistance_eq_iff _ f).mpr ⟨by omega, by omega⟩
  have hts : (c.entryOf n coding b).ts = ts := by
    show c.cursor + BitVec.ofInt 32 (roundedDistance (b.ts - c.cursor).toInt) = ts
    rw [hrounded, ← hdist, BitVec.ofInt_toInt, hb]
    exact add_sub_cancel _ _
  have hnew := Channel.placeBlock_new (n := n) (coding := coding) (made := 0) (b := b) (by rw [hrounded]; omega) (by rw [hrounded]; omega)
    (by rw [hlist]; exact nofun)
  have hfirst : { ts := ts, cell := n, block := b.index, coding := coding, origin := b.origin : Entry } ∈
      (Channel.placeBlock n coding (c, 0) b).1.list := by
    rw [hnew]
    refine mem_insertEntry.mpr (.inl ?_)
    rw [← hts]
    rfl
  have hall := Channel.foldl_placeBlock_filled c n coding (b :: bs) c.filled_refl
  have heq : (c.placeBlocks n coding (b :: bs)).1 = ((b :: bs).foldl (Channel.placeBlock n coding) (c, 0)).1 := by
    rw [Channel.placeBlocks_eq, if_neg fun h => hs h.2]
  refine ⟨hdist, ?_, ?_⟩
  · rw [heq]
    exact hall.fields
  · rw [heq, List.foldl_cons]
    refine Channel.foldl_placeBlock_keeps (P := fun acc => _ ∈ acc.1.list) (fun b acc acc' hp he => ?_) bs _ hfirst
    cases hp with
    | passed cs r => exact he
    | made cs r hclass hnew => exact mem_insertEntry.mpr (.inr he)

theorem State.placed_chan (s : State) (ch : LineNo) (n : CellNo) (coding : Coding) (bs : List Block) (c : Channel) :
    (s.placed ch n coding bs c).chan.get ch = (c.placeBlocks n coding bs).1 := by
  rw [← State.placeParcel_setChan, State.placeParcel_chan]
  simp

/-- Settles O19: the anchoring channel and its first entry, each kind of parcel, and what the placed blocks leave. -/
theorem arrivalFollowsItsKind : Obligations.ArrivalFollowsItsKind := by
  refine ⟨fun s ch n coding h hw hlist hf hprimary => ?_, fun s ch n coding h => ⟨fun hw => State.arrive_anchoring hw n coding h,
    fun tp htp => ⟨fun hg hm hs => ?_, fun ha => ?_⟩, fun early ha => State.arrive_resync ha n coding⟩, fun c n coding bs =>
    ⟨rfl, c.placeBlocks_length n coding bs, c.placeBlocks_eq n coding bs⟩⟩
  · obtain ⟨p, hp⟩ : ∃ p, h.primary = p + 1 := ⟨h.primary - 1, by omega⟩
    have hblock := h.blocks_primary (k := 0) (by omega)
    obtain ⟨b, bs, hbs⟩ : ∃ b bs, h.blocks = b :: bs := by
      cases hb : h.blocks with
      | nil => rw [hb] at hblock; cases hblock
      | cons b bs => exact ⟨b, bs, rfl⟩
    rw [hbs] at hblock
    obtain rfl := Option.some.inj hblock
    rw [State.arrive_anchoring hw, State.placed_chan, hbs]
    have hfirst := Channel.placeBlocks_anchored (c := { s.chan.get ch with
        lateRun := 0, earlyRun := 0, prevTransit := some (s.now - h.ts)
        cursor := h.ts - BitVec.ofNat 32 (80 * (s.chan.get ch).delay), state := .flowing, hold := 0, excess := 0, trim := false })
      (ts := h.ts) (f := (s.chan.get ch).delay) hlist hf rfl nofun n coding
      (b := { index := 0, origin := .primary, ts := h.ts + BitVec.ofNat 32 (80 * 0) }) (by simp) bs
    obtain ⟨hdist, hfields, hmem⟩ := hfirst
    dsimp only
    refine ⟨?_, ?_, ?_, ?_, ?_, ?_, ?_, ?_, hmem, ?_⟩
    · rw [hfields]
    · rw [hfields]; rfl
    · rw [hfields]
    · rw [hfields]
    · rw [hfields]
    · rw [hfields]
    · rw [hfields]
    · rw [hfields]
    · rw [show h.ts + BitVec.ofNat 32 (80 * 0) = h.ts by simp] at hdist
      rw [hfields]
      exact hdist
  · rw [State.arrive_reanchoring hg hm hs htp]
    have hdelay : ((({ s.chan.get ch with lateRun := 0, earlyRun := 0 } : Channel).jitterUpdate (s.now - h.ts) tp).delay) =
        targetOf (s.chan.get ch).params ((s.chan.get ch).j16 + min (s.now - h.ts - tp).toInt.natAbs 4000 - ((s.chan.get ch).j16 + 8) / 16) := by
      show (match (s.chan.get ch).mode with
        | .speech => _
        | .steady => _) = _
      rw [hm]
      rfl
    unfold Channel.realign Channel.anchorCursor
    rw [hdelay]
    rfl
  · rw [State.arrive_ordinary ha htp]
    have hj16 : jitterNext ((s.chan.get ch).alignment h).2.j16 (jitterStep (s.now - h.ts) tp) =
        (s.chan.get ch).j16 + min (s.now - h.ts - tp).toInt.natAbs 4000 - ((s.chan.get ch).j16 + 8) / 16 := by
      rw [Channel.alignment_fields]
      rfl
    have htarget : ∀ j16, targetOf ((s.chan.get ch).alignment h).2.params j16 = targetOf (s.chan.get ch).params j16 := fun j16 => by
      rw [Channel.alignment_fields]
    unfold Channel.jitterUpdate
    dsimp only
    rw [htarget, hj16]
    rfl

/-! ### Resyncs and references (R38, R39) -/

/-- Settles O20: a resync by its flush, and a reference that leaves a parcel cell by the count it leaves. -/
theorem resyncReturnsItsCells : Obligations.ResyncReturnsItsCells := by
  refine ⟨fun s ch early ts => ?_, fun s n ch refs clash hk => ⟨fun h => ?_, fun h => ?_⟩⟩
  · have hflushed : s.flushed ch = (s.dropRefs (s.chan.get ch).list).setChan ch { s.chan.get ch with list := [] } :=
      State.dropRefs_setChan _ _ _ _
    rw [State.resync_eq, hflushed]
    have hnow : ∀ c, ((s.dropRefs (s.chan.get ch).list).setChan ch c).now = s.now := fun c =>
      congrArg Clock.sc (s.dropRefs_clock _)
    dsimp only
    rw [State.setChan_setChan, State.setChan_chan, Four.get_set_same]
    unfold State.giveLineMark
    rw [hnow]
    rfl
  · unfold State.dropRef
    rw [hk]
    dsimp only
    rw [if_neg (by omega)]
    unfold State.setRole
    rw [hk]
    rfl
  · unfold State.dropRef
    rw [hk]
    dsimp only
    rw [if_pos h]
    rfl

end Sys2Proof.Machine

/-! ## Frame boundaries: what one does to its channel, its port and its cells -/

namespace Sys2Proof.Machine

/-! ### Cells that lose a reference (R39) -/

/-- A stamp that a byte other than 00h is written to changes no other byte, whatever form memory is in. -/
theorem Memory.read_write_listed (m : Memory) {a a' : Nat} {b : Byte} (hb : b ≠ unlistedByte) (h : a' ≠ a) :
    (m.write a b).read a' = m.read a' := by
  by_cases ha : 65536 ≤ a
  · have hput : m.write a b = m := if_pos ha
    rw [hput]
  · have hput : m.write a b = tablePut m a b := by
      unfold Memory.write
      rw [if_neg ha, if_neg hb]
    unfold Memory.read
    rw [hput, tableGet_put_other m _ h]

/-- Whether a cell goes back as RETURNED when an entry that names it leaves a list. -/
def lastReference : Option Kept → Bool
  | some { role := .parcel _ refs, clash := _ } => decide (refs ≤ 1)
  | _ => false

/-- What the keeping holds of a cell when an entry that names it has left a list. -/
def keptAfterDrop : Option Kept → Option Kept
  | some { role := .parcel ch refs, clash := clash } => if refs ≤ 1 then none else some { role := .parcel ch (refs - 1), clash := clash }
  | k => k

/-- A reference dropped, by what it leaves in the keeping, on READY and in memory. -/
theorem State.dropRef_fields (s : State) (n : CellNo) :
    s.dropRef n = { s with
      mem := if lastReference (s.keptAt n.val) then s.mem.write n.val stampReturned else s.mem
      ex := { s.ex with
        keeping := (s.dropRef n).ex.keeping
        ready := if lastReference (s.keptAt n.val) then tallyAdd s.ex.ready else s.ex.ready } } := by
  unfold State.dropRef
  split
  · next ch refs clash hk =>
    rw [hk]
    by_cases h : refs ≤ 1
    · simp only [lastReference, h, decide_true, if_true]
      rfl
    · simp only [lastReference, h, decide_false, if_false, Bool.false_eq_true]
      rfl
  · next hk =>
    have hnot : lastReference (s.keptAt n.val) = false := by
      cases hkept : s.keptAt n.val with
      | none => rfl
      | some k =>
        obtain ⟨role, clash⟩ := k
        cases role with
        | parcel ch refs => exact absurd hkept (hk ch refs clash)
        | sheet => rfl
        | spare => rfl
        | assembly ch => rfl
        | markSheet => rfl
    rw [hnot]
    rfl

theorem State.keptAt_dropRef (s : State) (n : CellNo) (hk : tableRising s.ex.keeping = true) (m : Nat) :
    (s.dropRef n).keptAt m = if m = n.val then keptAfterDrop (s.keptAt n.val) else s.keptAt m := by
  unfold State.dropRef
  split
  · next ch refs clash hkept =>
    rw [hkept]
    by_cases h : refs ≤ 1
    · simp only [keptAfterDrop, h, if_true, State.keptAt_handOver s n stampReturned m hk]
    · simp only [keptAfterDrop, h, if_false, State.setRole, hkept]
      exact tableGet_put _ _ _ _
  · next hno =>
    split
    · next e =>
      rw [e]
      cases hkept : s.keptAt n.val with
      | none => rfl
      | some k =>
        obtain ⟨role, clash⟩ := k
        cases role with
        | parcel ch refs => exact absurd hkept (hno ch refs clash)
        | sheet => rfl
        | spare => rfl
        | assembly ch => rfl
        | markSheet => rfl
    · rfl

/-- A reference dropped writes no byte but a stamp. -/
theorem State.dropRef_read (s : State) (n : CellNo) {a : Nat} (h : a ≠ n.val) : (s.dropRef n).mem.read a = s.mem.read a := by
  rw [State.dropRef_fields]
  dsimp only
  split
  · exact s.mem.read_write_listed (by decide) h
  · rfl

theorem State.decodeBlock_congr {s t : State} (h : ∀ (m : CellNo) (off : Nat), t.cellByte m off = s.cellByte m off) (n : CellNo)
    (c : Coding) (block : Nat) : t.decodeBlock n c block = s.decodeBlock n c block := by
  unfold State.decodeBlock
  refine List.map_congr_left fun i _ => ?_
  unfold State.decodeSample State.cellHalf State.halfAt
  cases c with
  | mu => dsimp only; rw [h]
  | a => dsimp only; rw [h]
  | lin16 =>
    have hbyte : ∀ a off, a = cellAddr n off → t.byteAt a = s.byteAt a := fun a off e => e ▸ h n off
    dsimp only
    rw [hbyte _ _ rfl, hbyte (cellAddr n (blockOffset .lin16 block + 2 * i) + 1) (blockOffset .lin16 block + 2 * i + 1) rfl]

theorem State.cellByte_dropRefs (es : List Entry) : ∀ (s : State) (m : CellNo) (off : Nat),
    (s.dropRefs es).cellByte m off = s.cellByte m off := by
  unfold State.dropRefs
  induction es with
  | nil => exact fun s m off => rfl
  | cons e es ih => exact fun s m off => (ih _ m off).trans (s.dropRef_read e.cell (val_lt_cellAddr e.cell m off).ne')

/-- References dropped depend on memory and the exchange unit alone. -/
theorem State.dropRef_congr {s t : State} (hm : t.mem = s.mem) (he : t.ex = s.ex) (n : CellNo) :
    (t.dropRef n).mem = (s.dropRef n).mem ∧ (t.dropRef n).ex = (s.dropRef n).ex := by
  unfold State.dropRef State.setRole State.keptAt
  rw [he]
  split
  · split
    · exact ⟨by simp [hm], by simp [State.handOver, he]⟩
    · exact ⟨by simp [hm], by simp [State.setKept, he]⟩
  · exact ⟨hm, he⟩

theorem State.dropRefs_congr (es : List Entry) : ∀ {s t : State}, t.mem = s.mem → t.ex = s.ex →
    (t.dropRefs es).mem = (s.dropRefs es).mem ∧ (t.dropRefs es).ex = (s.dropRefs es).ex := by
  unfold State.dropRefs
  induction es with
  | nil => exact fun hm he => ⟨hm, he⟩
  | cons e es ih =>
    intro s t hm he
    obtain ⟨hm', he'⟩ := State.dropRef_congr hm he e.cell
    exact ih hm' he'

/-- References of two cells are dropped in either order with one result. -/
theorem State.dropRef_comm {s : State} {n m : CellNo} (hnm : n ≠ m) (hm : s.mem.wf = true) (hk : tableRising s.ex.keeping = true) :
    (s.dropRef n).dropRef m = (s.dropRef m).dropRef n := by
  have hv : n.val ≠ m.val := fun e => hnm (Fin.ext e)
  obtain ⟨hwn, hkn⟩ := s.dropRef_forms n hm hk
  obtain ⟨hwm, hkm⟩ := s.dropRef_forms m hm hk
  have hkeeping : ((s.dropRef n).dropRef m).ex.keeping = ((s.dropRef m).dropRef n).ex.keeping := by
    refine table_ext ((s.dropRef n).dropRef_forms m hwn hkn).2 ((s.dropRef m).dropRef_forms n hwm hkm).2 fun x => ?_
    show ((s.dropRef n).dropRef m).keptAt x = ((s.dropRef m).dropRef n).keptAt x
    rw [State.keptAt_dropRef _ _ hkn, State.keptAt_dropRef _ _ hkm, State.keptAt_dropRef _ _ hk, State.keptAt_dropRef _ _ hk,
      State.keptAt_dropRef _ _ hk, State.keptAt_dropRef _ _ hk, if_neg hv, if_neg (Ne.symm hv)]
    by_cases hxm : x = m.val
    · rw [if_pos hxm, if_neg (by omega), if_pos hxm]
    · rw [if_neg hxm, if_neg hxm]
  rw [State.dropRef_fields (s.dropRef n) m, State.dropRef_fields (s.dropRef m) n, hkeeping, State.keptAt_dropRef _ _ hk,
    State.keptAt_dropRef _ _ hk, if_neg hv, if_neg (Ne.symm hv)]
  rw [State.dropRef_fields s n, State.dropRef_fields s m]
  dsimp only
  have hmem : ∀ b c : Byte, (s.mem.write n.val b).write m.val c = (s.mem.write m.val c).write n.val b := by
    intro b c
    refine Memory.ext_read (Memory.wf_write _ _ _ (s.mem.wf_write _ _ hm)) (Memory.wf_write _ _ _ (s.mem.wf_write _ _ hm)) fun x => ?_
    rw [Memory.read_write (s.mem.wf_write _ _ hm) _ (by omega), Memory.read_write hm _ (by omega),
      Memory.read_write (s.mem.wf_write _ _ hm) _ (by omega), Memory.read_write hm _ (by omega)]
    by_cases hxm : x = m.val
    · rw [if_pos hxm, if_neg (by omega), if_pos hxm]
    · rw [if_neg hxm, if_neg hxm]
  cases lastReference (s.keptAt n.val) <;> cases lastReference (s.keptAt m.val) <;> simp only [if_true, if_false, Bool.false_eq_true, hmem]

theorem State.dropRef_dropRefs {n : CellNo} (es : List Entry) (hn : ∀ e ∈ es, e.cell ≠ n) : ∀ s : State, s.mem.wf = true →
    tableRising s.ex.keeping = true → (s.dropRef n).dropRefs es = (s.dropRefs es).dropRef n := by
  unfold State.dropRefs
  induction es with
  | nil => exact fun s _ _ => rfl
  | cons e es ih =>
    intro s hm hk
    obtain ⟨hm', hk'⟩ := s.dropRef_forms e.cell hm hk
    rw [List.foldl_cons, List.foldl_cons, State.dropRef_comm (Ne.symm (hn e List.mem_cons_self)) hm hk,
      ih (fun x hx => hn x (List.mem_cons_of_mem e hx)) _ hm' hk']

theorem State.dropRefs_comm {fs : List Entry} (es : List Entry) (h : ∀ e ∈ es, ∀ f ∈ fs, f.cell ≠ e.cell) : ∀ s : State, s.mem.wf = true →
    tableRising s.ex.keeping = true → (s.dropRefs es).dropRefs fs = (s.dropRefs fs).dropRefs es := by
  induction es with
  | nil => exact fun s _ _ => rfl
  | cons e es ih =>
    intro s hm hk
    obtain ⟨hm', hk'⟩ := s.dropRef_forms e.cell hm hk
    show ((s.dropRef e.cell).dropRefs es).dropRefs fs = ((s.dropRefs fs).dropRef e.cell).dropRefs es
    rw [ih (fun x hx => h x (List.mem_cons_of_mem e hx)) _ hm' hk', State.dropRef_dropRefs fs (h e List.mem_cons_self) s hm hk]

/-! ### What a boundary hands on (R59 to R69) -/

/-- The verdict record that a far frame leaves (R69). -/
def Clock.heard (k : Clock) (v : Verdict) (f : Frame) : Verdict :=
  { v with
    reopened := false
    farFrames := v.farFrames ++ [{ boundary := k.boundaries, sc := k.boundarySc, afresh := v.reopened, samples := f }] }

theorem State.handFrames_some (s : State) (ch : LineNo) (out f : Frame) :
    s.handFrames ch out (some f) = (s.setPort ch { s.port.get ch with played := out }).setVerdict ch (s.clock.heard (s.verdict.get ch) f) := rfl

theorem exec_frameBoundary_of_ordinary {ch : LineNo} {s : State} (ht : s.canTake (.frame ch) = true)
    (hs : (s.chan.get ch).state = .flowing ∨ (s.chan.get ch).state = .gap) (hh : (s.chan.get ch).hold = 0)
    (htrim : (s.chan.get ch).trim = false) :
    exec (.frameBoundary ch) s = .next ((s.undue (.frame ch)).ordinaryBoundary ch) := by
  rw [exec_frameBoundary_of_canTake ht, State.playBoundary_of_playing (s := s.undue (.frame ch)) hs hh]
  have hno : ((s.undue (.frame ch)).chan.get ch).trim = false := htrim
  rw [hno]
  rfl

/-- A boundary with a hold hands silence to both sides and lowers the hold (R61). -/
theorem State.playBoundary_of_hold {s : State} {ch : LineNo} (hs : (s.chan.get ch).state = .flowing ∨ (s.chan.get ch).state = .gap)
    (hh : 0 < (s.chan.get ch).hold) :
    s.playBoundary ch = (s.setChan ch { s.chan.get ch with hold := (s.chan.get ch).hold - 1 }).handFrames ch silence (some silence) := by
  unfold State.playBoundary
  dsimp only
  split
  · next h => exact absurd hs (by simp [h])
  · next h => exact absurd hs (by simp [h])
  · exact if_pos hh

/-- A boundary with an entry at the cursor plays it (R63). -/
theorem State.ordinaryBoundary_plays {s : State} {ch : LineNo} {e : Entry}
    (h : (s.chan.get ch).list.find? (fun x => x.ts == (s.chan.get ch).cursor) = some e) :
    s.ordinaryBoundary ch = ((s.dropRef e.cell).setChan ch
      (({ s.chan.get ch with
          list := (s.chan.get ch).list.eraseP (fun x => x.ts == (s.chan.get ch).cursor)
          last := s.decodeBlock e.cell e.coding e.block
          conceal := 0 } : Channel).bump .played).settle).handFrames ch
        (applyGain (s.chan.get ch).params.playoutGain (s.decodeBlock e.cell e.coding e.block)) (some (s.decodeBlock e.cell e.coding e.block)) := by
  simp only [State.ordinaryBoundary, h, State.dropRef_setChan, Channel.bump_params]

/-- In SPEECH a boundary with no entry at the cursor conceals (R64). -/
theorem State.ordinaryBoundary_conceals {s : State} {ch : LineNo}
    (h : (s.chan.get ch).list.find? (fun x => x.ts == (s.chan.get ch).cursor) = none) (hm : (s.chan.get ch).mode = .speech) :
    s.ordinaryBoundary ch = (s.setChan ch
      (({ s.chan.get ch with conceal := min 255 ((s.chan.get ch).conceal + 1) } : Channel).bump .concealed).settle).handFrames ch
        (applyGain (s.chan.get ch).params.playoutGain
          (scaleQuarters (concealQuarters (min 255 ((s.chan.get ch).conceal + 1))) (s.chan.get ch).last)) (some silence) := by
  unfold State.ordinaryBoundary
  dsimp only
  split
  · next e he => exact absurd (he.symm.trans h) (by simp)
  · split
    · simp only [Channel.bump_params]
    · next hmode => exact absurd (hmode.symm.trans hm) (by simp)

/-- Settles O21: the boundary by the channel's state, and the ordinary one by the entry at its cursor. -/
theorem frameBoundaryHandsOnItsFrames : Obligations.FrameBoundaryHandsOnItsFrames := by
  intro ch s ht
  refine ⟨fun hs => ?closed, fun hs => ?waiting, fun hs hh => ?hold, fun e hs hh htrim hfind => ?plays⟩
  case closed =>
    rw [exec_frameBoundary_of_canTake ht]
    have hstate : ((s.undue (.frame ch)).chan.get ch).state = .closed := hs
    simp only [State.playBoundary, hstate]
  case waiting =>
    rw [exec_frameBoundary_of_canTake ht]
    have hstate : ((s.undue (.frame ch)).chan.get ch).state = .waiting := hs
    simp only [State.playBoundary, hstate]
    rfl
  case hold =>
    rw [exec_frameBoundary_of_canTake ht]
    exact congrArg Host.Outcome.next (State.playBoundary_of_hold (s := s.undue (.frame ch)) hs hh)
  case plays =>
    intro f played
    rw [exec_frameBoundary_of_ordinary ht hs hh htrim]
    rw [State.ordinaryBoundary_plays (s := s.undue (.frame ch)) hfind]
    refine congrArg Host.Outcome.next ?_
    rw [State.handFrames_some]
    have hport : ((s.undue (.frame ch)).dropRef e.cell).port = s.port := by simp
    have hverdict : ((s.undue (.frame ch)).dropRef e.cell).verdict = s.verdict := by simp
    have hclock : ((s.undue (.frame ch)).dropRef e.cell).clock = s.clock := by simp
    simp only [State.setChan_port, State.setChan_clock, State.setChan_verdict, hport, hverdict, hclock]
    rfl

/-- Settles O22: with no entry at the cursor the ordinary boundary conceals in SPEECH and fills in STEADY. -/
theorem frameBoundaryConcealsOrFills : Obligations.FrameBoundaryConcealsOrFills := by
  intro ch s ht c v count quarters hand hs hh htrim hno
  have hnone : ((s.undue (.frame ch)).chan.get ch).list.find? (·.ts == ((s.undue (.frame ch)).chan.get ch).cursor) = none :=
    List.find?_eq_none.mpr fun e he => by simpa using hno e he
  rw [exec_frameBoundary_of_ordinary ht hs hh htrim]
  refine ⟨fun hm => ?conceals, fun hm => ?fills⟩
  case conceals =>
    have hquarters : quarters = concealQuarters count := by
      have hpos : 1 ≤ count := by omega
      unfold concealQuarters
      unfold quarters
      split <;> [skip; split <;> [skip; split]] <;> omega
    have hout : (c.last.map fun x => gainSample c.params.playoutGain (sat ((x.toInt * quarters).tdiv 4))) =
        applyGain c.params.playoutGain (scaleQuarters (concealQuarters count) c.last) := by
      rw [hquarters, applyGain, scaleQuarters, List.map_map]
      rfl
    rw [hout, State.ordinaryBoundary_conceals (s := s.undue (.frame ch)) hnone hm]
    rfl
  case fills =>
    have hmode : ((s.undue (.frame ch)).chan.get ch).mode = .steady := hm
    simp only [State.ordinaryBoundary, hnone, hmode]
    rfl

/-- Settles O25: the trigger leaves its line's record, and the channel's state, mode and parameters say whether it enters STEADY. -/
theorem toneTriggerEntersSteady : Obligations.ToneTriggerEntersSteady := by
  intro ch cause s hrun hmem c v u steady added
  have htaken : exec (.toneTrigger ch cause) s = .next (u.takeTrigger ch cause) := by
    have hgo : (s.clock.running && (s.verdict.get ch).triggers.contains cause) = true := by simp [hrun, hmem]
    show Host.Outcome.next _ = _
    simp only [State.triggerEvent, hgo, if_true]
    rfl
  rw [htaken]
  refine ⟨fun hs hm ha => ?enters, fun h => ?ignores⟩
  case enters =>
    have hgo : (u.chan.get ch).state ≠ .closed ∧ (u.chan.get ch).mode = .speech ∧ (u.chan.get ch).params.autoSteady = true := ⟨hs, hm, ha⟩
    have hadded : (if (u.chan.get ch).anchored then steady - c.target else 0) = added := by
      refine if_congr ?_ rfl rfl
      show (c.state == .flowing || c.state == .gap) = true ↔ _
      simp
    have hcode : triggerCode cause = if cause = .toneLine then 1 else 2 := by cases cause <;> rfl
    have htake : u.takeTrigger ch cause = (u.enterSteady ch none (triggerCode cause)).1 := if_pos hgo
    rw [htake, hcode]
    unfold State.enterSteady
    dsimp only
    rw [← hadded]
    rfl
  case ignores =>
    have hno : ¬ ((u.chan.get ch).state ≠ .closed ∧ (u.chan.get ch).mode = .speech ∧ (u.chan.get ch).params.autoSteady = true) := by
      rintro ⟨hs, hm, ha⟩
      rcases h with h | h | h
      · exact hs h
      · exact Mode.noConfusion (hm.symm.trans h)
      · exact Bool.noConfusion (ha.symm.trans h)
    exact congrArg Host.Outcome.next (if_neg hno)

/-! ### Two boundaries commute (R8, R41, R58) -/

/-- What a frame boundary does: the entries that leave the list, the channel left, and the frames handed to the port and to the tone and
verdict unit. -/
structure Boundary where
  entries : List Entry
  chan : Channel
  out : Frame
  far : Option Frame

/-- The trim step of a channel: the entry that it drops and the channel left (R62). -/
def Channel.trimmed (c : Channel) : List Entry × Channel :=
  let moved := { c with cursor := c.cursor + 80, trim := false }
  match c.list.find? (·.ts == c.cursor) with
  | none => ([], moved)
  | some e => ([e], ({ moved with list := c.list.eraseP (·.ts == c.cursor) }).bump .trimmedFrames)

/-- The ordinary boundary of a channel whose entries decode as given (R63 to R66). -/
def Channel.ordinary (c : Channel) (decode : Entry → Frame) : Boundary :=
  match c.list.find? (·.ts == c.cursor) with
  | some e =>
    { entries := [e]
      chan := (({ c with list := c.list.eraseP (·.ts == c.cursor), last := decode e, conceal := 0 }).bump .played).settle
      out := applyGain c.params.playoutGain (decode e)
      far := some (decode e) }
  | none =>
    match c.mode with
    | .speech =>
      let count := min 255 (c.conceal + 1)
      { entries := []
        chan := (({ c with conceal := count }).bump .concealed).settle
        out := applyGain c.params.playoutGain (scaleQuarters (concealQuarters count) c.last)
        far := some silence }
    | .steady => { entries := [], chan := (c.bump .filled).settle, out := silence, far := some silence }

/-- What a channel does at its frame boundary, by its own record and the frames that its entries decode to; none when it is CLOSED. -/
def Channel.boundary (c : Channel) (decode : Entry → Frame) : Option Boundary :=
  match c.state with
  | .closed => none
  | .waiting => some { entries := [], chan := c, out := silence, far := none }
  | _ =>
    if 0 < c.hold then some { entries := [], chan := { c with hold := c.hold - 1 }, out := silence, far := some silence }
    else if c.trim then
      let b := c.trimmed.2.ordinary decode
      some { b with entries := c.trimmed.1 ++ b.entries }
    else some (c.ordinary decode)

/-- The frame that an entry decodes to. -/
def State.decodeEntry (s : State) (e : Entry) : Frame := s.decodeBlock e.cell e.coding e.block

/-- The state that a boundary leaves. -/
def State.handOn (s : State) (ch : LineNo) (b : Boundary) : State :=
  ((s.dropRefs b.entries).setChan ch b.chan).handFrames ch b.out b.far

theorem State.dropRefs_append (s : State) (es fs : List Entry) : s.dropRefs (es ++ fs) = (s.dropRefs es).dropRefs fs := List.foldl_append

theorem State.decodeEntry_of_mem {s t : State} (hmem : t.mem = s.mem) : t.decodeEntry = s.decodeEntry := by
  funext e
  exact State.decodeBlock_congr (fun m off => by unfold State.cellByte State.byteAt; rw [hmem]) e.cell e.coding e.block

theorem State.decodeEntry_dropRefs (s : State) (es : List Entry) : (s.dropRefs es).decodeEntry = s.decodeEntry := by
  funext e
  exact State.decodeBlock_congr (State.cellByte_dropRefs es s) e.cell e.coding e.block

theorem State.trimStep_eq (s : State) (ch : LineNo) :
    s.trimStep ch = (s.dropRefs (s.chan.get ch).trimmed.1).setChan ch (s.chan.get ch).trimmed.2 := by
  cases h : (s.chan.get ch).list.find? (·.ts == (s.chan.get ch).cursor) with
  | none => simp only [State.trimStep, Channel.trimmed, h, State.dropRefs, List.foldl_nil]
  | some e => simp only [State.trimStep, Channel.trimmed, h, State.dropRefs, List.foldl_cons, List.foldl_nil, State.dropRef_setChan]

theorem State.ordinaryBoundary_eq (s : State) (ch : LineNo) :
    s.ordinaryBoundary ch = s.handOn ch ((s.chan.get ch).ordinary s.decodeEntry) := by
  cases h : (s.chan.get ch).list.find? (·.ts == (s.chan.get ch).cursor) with
  | some e =>
    simp only [State.ordinaryBoundary, Channel.ordinary, h, State.handOn, State.decodeEntry, State.dropRefs, List.foldl_cons,
      List.foldl_nil, State.dropRef_setChan, Channel.bump_params]
  | none =>
    cases hm : (s.chan.get ch).mode <;>
      simp only [State.ordinaryBoundary, Channel.ordinary, h, hm, State.handOn, State.dropRefs, List.foldl_nil, Channel.bump_params]

/-- A trim step and the ordinary boundary of the state that it leaves, as one boundary. -/
theorem State.trimStep_ordinaryBoundary (s : State) (ch : LineNo) :
    (s.trimStep ch).ordinaryBoundary ch = s.handOn ch
      { (s.chan.get ch).trimmed.2.ordinary s.decodeEntry with
        entries := (s.chan.get ch).trimmed.1 ++ ((s.chan.get ch).trimmed.2.ordinary s.decodeEntry).entries } := by
  have hget : ((s.trimStep ch).chan.get ch) = (s.chan.get ch).trimmed.2 := by rw [State.trimStep_eq]; simp
  have hdecode : (s.trimStep ch).decodeEntry = s.decodeEntry := by
    rw [State.trimStep_eq, ← s.decodeEntry_dropRefs (s.chan.get ch).trimmed.1]
    exact State.decodeEntry_of_mem rfl
  rw [State.ordinaryBoundary_eq, hget, hdecode, State.trimStep_eq]
  unfold State.handOn
  dsimp only
  rw [State.dropRefs_setChan, State.setChan_setChan, State.dropRefs_append]

theorem Channel.boundary_of_playing {c : Channel} (decode : Entry → Frame) (hs : c.state = .flowing ∨ c.state = .gap) :
    c.boundary decode =
      if 0 < c.hold then some { entries := [], chan := { c with hold := c.hold - 1 }, out := silence, far := some silence }
      else if c.trim then
        some { c.trimmed.2.ordinary decode with entries := c.trimmed.1 ++ (c.trimmed.2.ordinary decode).entries }
      else some (c.ordinary decode) := by
  unfold Channel.boundary
  split
  · next h => exact absurd hs (by simp [h])
  · next h => exact absurd hs (by simp [h])
  · rfl

theorem State.playBoundary_eq_of_playing {s : State} {ch : LineNo} (hs : (s.chan.get ch).state = .flowing ∨ (s.chan.get ch).state = .gap) :
    s.playBoundary ch = ((s.chan.get ch).boundary s.decodeEntry).elim s (s.handOn ch) := by
  rw [Channel.boundary_of_playing _ hs]
  by_cases hh : 0 < (s.chan.get ch).hold
  · rw [State.playBoundary_of_hold hs hh, if_pos hh]
    rfl
  · rw [State.playBoundary_of_playing hs (by omega), if_neg hh]
    split
    · exact s.trimStep_ordinaryBoundary ch
    · exact s.ordinaryBoundary_eq ch

/-- A frame boundary, by the channel's record and the frames that its entries decode to. -/
theorem State.playBoundary_eq (s : State) (ch : LineNo) :
    s.playBoundary ch = ((s.chan.get ch).boundary s.decodeEntry).elim s (s.handOn ch) := by
  cases hs : (s.chan.get ch).state with
  | closed => simp only [State.playBoundary, Channel.boundary, hs, Option.elim]
  | waiting =>
    have hself : s.setChan ch (s.chan.get ch) = s := congrArg (fun v => { s with chan := v }) (s.chan.set_get ch)
    simp only [State.playBoundary, Channel.boundary, hs, Option.elim, State.handOn, State.dropRefs, List.foldl_nil, hself]
  | flowing => exact State.playBoundary_eq_of_playing (.inl hs)
  | gap => exact State.playBoundary_eq_of_playing (.inr hs)

/-- The entries that leave at a boundary were on the list. -/
theorem Channel.boundary_entries {c : Channel} {decode : Entry → Frame} {b : Boundary} (h : c.boundary decode = some b) :
    ∀ e ∈ b.entries, e ∈ c.list := by
  have hordinary : ∀ k : Channel, ∀ e ∈ (k.ordinary decode).entries, e ∈ k.list := by
    intro k e he
    cases hfind : k.list.find? (·.ts == k.cursor) with
    | none => cases hm : k.mode <;> simp [Channel.ordinary, hfind, hm] at he
    | some x =>
      simp only [Channel.ordinary, hfind, List.mem_singleton] at he
      exact he ▸ List.mem_of_find?_eq_some hfind
  have htrimmed : (∀ e ∈ c.trimmed.1, e ∈ c.list) ∧ ∀ e ∈ c.trimmed.2.list, e ∈ c.list := by
    cases hfind : c.list.find? (·.ts == c.cursor) with
    | none => simp [Channel.trimmed, hfind]
    | some x =>
      simp only [Channel.trimmed, hfind, List.mem_singleton, Channel.bump_list, forall_eq]
      exact ⟨List.mem_of_find?_eq_some hfind, fun e he => List.eraseP_subset he⟩
  have hnone : ∀ e ∈ ([] : List Entry), e ∈ c.list := fun e he => absurd he List.not_mem_nil
  unfold Channel.boundary at h
  split at h
  · cases h
  · cases h
    exact hnone
  · split at h
    · cases h
      exact hnone
    · split at h
      · cases h
        intro e he
        rcases List.mem_append.mp he with he | he
        · exact htrimmed.1 e he
        · exact htrimmed.2 e (hordinary _ e he)
      · cases h
        exact hordinary c

/-- The verdict records that a boundary leaves (R69). -/
def State.heardAt (s : State) (ch : LineNo) : Option Frame → Four Verdict
  | none => s.verdict
  | some f => s.verdict.set ch (s.clock.heard (s.verdict.get ch) f)

/-- The state that a boundary leaves, field by field. -/
theorem State.handOn_eq (s : State) (ch : LineNo) (b : Boundary) :
    s.handOn ch b = { s with
      mem := (s.dropRefs b.entries).mem
      ex := (s.dropRefs b.entries).ex
      chan := s.chan.set ch b.chan
      port := s.port.set ch { s.port.get ch with played := b.out }
      verdict := s.heardAt ch b.far } := by
  unfold State.handOn
  rw [State.dropRefs_eq]
  cases b.far <;> rfl

theorem State.handOn_undue (s : State) (e : Event) (ch : LineNo) (b : Boundary) : (s.undue e).handOn ch b = (s.handOn ch b).undue e := by
  obtain ⟨hmem, hex⟩ := State.dropRefs_congr b.entries (s := s) (t := s.undue e) rfl rfl
  rw [State.handOn_eq, State.handOn_eq, hmem, hex]
  rfl

theorem State.handOn_comm {s : State} {a b : LineNo} (hab : a ≠ b) {x y : Boundary} (hcells : ∀ e ∈ x.entries, ∀ f ∈ y.entries, f.cell ≠ e.cell)
    (hm : s.mem.wf = true) (hk : tableRising s.ex.keeping = true) : (s.handOn a x).handOn b y = (s.handOn b y).handOn a x := by
  have hdropped : ∀ (ch : LineNo) (z w : Boundary), ((s.handOn ch z).dropRefs w.entries).mem = ((s.dropRefs z.entries).dropRefs w.entries).mem ∧
      ((s.handOn ch z).dropRefs w.entries).ex = ((s.dropRefs z.entries).dropRefs w.entries).ex := by
    intro ch z w
    exact State.dropRefs_congr w.entries (by rw [State.handOn_eq]) (by rw [State.handOn_eq])
  have hcomm := State.dropRefs_comm x.entries hcells s hm hk
  have hheard : (s.handOn a x).heardAt b y.far = (s.handOn b y).heardAt a x.far := by
    rw [State.handOn_eq, State.handOn_eq]
    cases x.far <;> cases y.far <;> simp only [State.heardAt, Four.get_set_other _ _ hab, Four.get_set_other _ _ hab.symm]
    exact Four.set_comm _ _ _ hab
  rw [State.handOn_eq (s.handOn a x), State.handOn_eq (s.handOn b y), hheard, (hdropped a x y).1, (hdropped a x y).2, (hdropped b y x).1,
    (hdropped b y x).2, hcomm]
  rw [State.handOn_eq s a x, State.handOn_eq s b y]
  dsimp only
  rw [Four.set_comm _ _ _ hab, Four.get_set_other _ _ hab, Four.get_set_other _ _ hab.symm, Four.set_comm _ _ _ hab]

/-- What a channel's frame boundary does in a state. -/
def State.boundaryAt (s : State) (ch : LineNo) : Option Boundary := (s.chan.get ch).boundary s.decodeEntry

/-- The state that a frame boundary event leaves, when it is due. -/
theorem State.frameEvent_taken {s : State} {ch : LineNo} (ht : s.canTake (.frame ch) = true) :
    s.frameEvent ch = ((s.boundaryAt ch).elim s (s.handOn ch)).undue (.frame ch) := by
  have hplay := (s.undue (.frame ch)).playBoundary_eq ch
  have hdecode : (s.undue (.frame ch)).decodeEntry = s.decodeEntry := State.decodeEntry_of_mem rfl
  rw [hdecode] at hplay
  unfold State.frameEvent
  rw [State.takeEvent_taken _ _ _ ht, hplay]
  show ((s.boundaryAt ch).elim _ _) = _
  cases s.boundaryAt ch with
  | none => rfl
  | some b => exact s.handOn_undue (.frame ch) ch b

/-- The boundary of one channel leaves another's as it was. -/
theorem State.boundaryAt_frameEvent (s : State) {a b : LineNo} (hab : a ≠ b) : (s.frameEvent a).boundaryAt b = s.boundaryAt b := by
  cases ht : s.canTake (.frame a) with
  | false => exact congrArg (State.boundaryAt · b) (s.takeEvent_left _ _ ht)
  | true =>
    rw [State.frameEvent_taken ht]
    cases s.boundaryAt a with
    | none => rfl
    | some x =>
      have hdecode : (s.handOn a x).decodeEntry = s.decodeEntry := by
        rw [← s.decodeEntry_dropRefs x.entries, State.handOn_eq]
        exact State.decodeEntry_of_mem rfl
      show ((s.handOn a x).chan.get b).boundary (s.handOn a x).decodeEntry = _
      rw [hdecode, State.handOn_eq]
      exact congrArg (Channel.boundary · _) (Four.get_set_other _ _ hab.symm)

/-- It takes no event of another channel. -/
theorem State.canTake_frameEvent (s : State) {a b : LineNo} (hab : a ≠ b) : (s.frameEvent a).canTake (.frame b) = s.canTake (.frame b) := by
  cases ht : s.canTake (.frame a) with
  | false => exact congrArg (State.canTake · (.frame b)) (s.takeEvent_left _ _ ht)
  | true =>
    have hkept : (s.boundaryAt a).elim s (s.handOn a) = { (s.boundaryAt a).elim s (s.handOn a) with clock := s.clock, due := s.due } := by
      cases s.boundaryAt a with
      | none => rfl
      | some x => rw [Option.elim, State.handOn_eq]
    rw [State.frameEvent_taken ht, hkept]
    exact congrArg (s.clock.running && ·) (Four.get_set_other _ _ hab.symm)

/-- The boundary events of two channels whose entries name different cells commute. -/
theorem State.frameEvent_comm {s : State} {a b : LineNo} (hab : a ≠ b) (hm : s.mem.wf = true) (hk : tableRising s.ex.keeping = true)
    (hcells : ∀ e ∈ (s.chan.get a).list, ∀ f ∈ (s.chan.get b).list, f.cell ≠ e.cell) :
    (s.frameEvent a).frameEvent b = (s.frameEvent b).frameEvent a := by
  cases ha : s.canTake (.frame a) with
  | false =>
    have hleft : ∀ w : State, w.canTake (.frame a) = false → w.frameEvent a = w := fun w hw => w.takeEvent_left _ _ hw
    rw [hleft s ha, hleft _ ((s.canTake_frameEvent hab.symm).trans ha)]
  | true =>
    cases hb : s.canTake (.frame b) with
    | false =>
      have hleft : ∀ w : State, w.canTake (.frame b) = false → w.frameEvent b = w := fun w hw => w.takeEvent_left _ _ hw
      rw [hleft s hb, hleft _ ((s.canTake_frameEvent hab).trans hb)]
    | true =>
      have hundue : ∀ w : State, (w.undue (.frame a)).undue (.frame b) = (w.undue (.frame b)).undue (.frame a) := fun w =>
        congrArg (fun f => { w with due := { w.due with frame := f } }) (Four.set_comm _ _ _ hab)
      rw [State.frameEvent_taken ((s.canTake_frameEvent hab).trans hb), State.frameEvent_taken ((s.canTake_frameEvent hab.symm).trans ha),
        s.boundaryAt_frameEvent hab, s.boundaryAt_frameEvent hab.symm, State.frameEvent_taken ha, State.frameEvent_taken hb]
      cases hx : s.boundaryAt a with
      | none => cases hy : s.boundaryAt b <;> simp only [Option.elim, State.handOn_undue, hundue]
      | some x =>
        cases hy : s.boundaryAt b with
        | none => simp only [Option.elim, State.handOn_undue, hundue]
        | some y =>
          have hxy : ∀ e ∈ x.entries, ∀ f ∈ y.entries, f.cell ≠ e.cell := fun e he f hf =>
            hcells e (Channel.boundary_entries hx e he) f (Channel.boundary_entries hy f hf)
          simp only [Option.elim, State.handOn_undue, hundue, State.handOn_comm hab hxy hm hk]

/-- Settles O24: a kept parcel cell is one channel's, so the entries of two channels name different cells. -/
theorem frameBoundariesOfTwoChannelsCommute : Obligations.FrameBoundariesOfTwoChannelsCommute := by
  intro a b s t u hab hm hkeep ht hu
  obtain ⟨hrising, -, -, hnamed, -⟩ := hkeep
  have hcells : ∀ e ∈ (s.chan.get a).list, ∀ f ∈ (s.chan.get b).list, f.cell ≠ e.cell := by
    intro e he f hf hsame
    have hb := hnamed b f hf
    rw [hsame, hnamed a e he] at hb
    exact hab (Option.some.inj hb)
  cases ht
  cases hu
  exact congrArg Host.Outcome.next (State.frameEvent_comm hab hm hrising hcells)

end Sys2Proof.Machine

/-! ## The capture side: judging, periods and hand-over (R81 to R91) -/

namespace Sys2Proof.Machine

/-! ### Judging a frame (R83), and the state after a period (R91) -/

theorem frameActive_iff (threshold : Nat) (f : Frame) : frameActive threshold f = true ↔ threshold = 0 ∨ threshold ≤ energy f := by
  simp [frameActive]

theorem inactiveAfter_eq (mode : Mode) (threshold run : Nat) (f : Frame) :
    inactiveAfter mode (frameActive threshold f) run =
      if mode = .steady ∨ threshold = 0 ∨ threshold ≤ energy f then 0 else min 255 (run + 1) := by
  cases mode with
  | steady => rw [if_pos (.inl rfl)]; rfl
  | speech =>
    have h := frameActive_iff threshold f
    by_cases ha : threshold = 0 ∨ threshold ≤ energy f
    · rw [if_pos (.inr ha), inactiveAfter, if_pos (h.mpr ha)]
    · rw [if_neg (by simpa using ha), inactiveAfter, if_neg (fun e => ha (h.mp e))]

theorem stateAfterPeriod_eq (mode : Mode) (inactive hangover : Nat) :
    stateAfterPeriod mode inactive hangover = if mode = .steady ∨ inactive < max 1 hangover then .sending else .silent := by
  cases mode with
  | steady => rw [if_pos (.inl rfl)]; rfl
  | speech =>
    by_cases h : inactive < max 1 hangover
    · rw [if_pos (.inr h), stateAfterPeriod, if_neg (by omega)]
    · rw [if_neg (by simpa using h), stateAfterPeriod, if_pos (by omega)]

theorem exec_captureEvent_of_open {ch : LineNo} {s : State} (ht : s.canTake (.capture ch) = true) (hs : (s.chan.get ch).state ≠ .closed) :
    exec (.captureEvent ch) s = .next ((s.undue (.capture ch)).captureStep ch) :=
  congrArg Host.Outcome.next ((s.takeEvent_taken (.capture ch) _ ht).trans (if_neg hs))

theorem exec_captureEvent_of_closed {ch : LineNo} {s : State} (ht : s.canTake (.capture ch) = true) (hs : (s.chan.get ch).state = .closed) :
    exec (.captureEvent ch) s = .next (s.undue (.capture ch)) :=
  congrArg Host.Outcome.next ((s.takeEvent_taken (.capture ch) _ ht).trans (if_pos hs))

/-! ### What a period step leaves (R81) -/

/-- A period step of a channel: of the other capture sides nothing changes, of its own neither the history, the timestamp nor the inactive
run, of its playout side the counters alone, and else memory, the exchange unit and the mark writer alone. -/
structure State.PeriodRun (s : State) (ch : LineNo) (t : State) : Prop where
  counters : s.CountersOf ch t
  others : ∀ m, m ≠ ch → t.cap.get m = s.cap.get m
  history : (t.cap.get ch).history = (s.cap.get ch).history
  tsCounter : (t.cap.get ch).tsCounter = (s.cap.get ch).tsCounter
  inactive : (t.cap.get ch).inactive = (s.cap.get ch).inactive
  rest : t = { s with mem := t.mem, ex := t.ex, marks := t.marks, cap := t.cap, chan := t.chan }

section PeriodRun

variable {s t u : State} {ch : LineNo}

theorem State.PeriodRun.refl (s : State) (ch : LineNo) : s.PeriodRun ch s := ⟨.of_eq rfl, fun _ _ => rfl, rfl, rfl, rfl, rfl⟩

theorem State.PeriodRun.trans (h : s.PeriodRun ch t) (g : t.PeriodRun ch u) : s.PeriodRun ch u where
  counters := h.counters.trans g.counters
  others m hm := (g.others m hm).trans (h.others m hm)
  history := g.history.trans h.history
  tsCounter := g.tsCounter.trans h.tsCounter
  inactive := g.inactive.trans h.inactive
  rest := by rw [g.rest, h.rest]

/-- A step that leaves the channels and the capture sides. -/
theorem State.PeriodRun.of_eq (hchan : t.chan = s.chan) (hcap : t.cap = s.cap)
    (hrest : t = { s with mem := t.mem, ex := t.ex, marks := t.marks, cap := t.cap, chan := t.chan }) : s.PeriodRun ch t :=
  ⟨.of_eq hchan, fun m _ => by rw [hcap], by rw [hcap], by rw [hcap], by rw [hcap], hrest⟩

theorem State.periodRun_setCap (s : State) {ch : LineNo} {c : Capture} (hh : c.history = (s.cap.get ch).history)
    (ht : c.tsCounter = (s.cap.get ch).tsCounter) (hi : c.inactive = (s.cap.get ch).inactive) : s.PeriodRun ch (s.setCap ch c) :=
  ⟨.of_eq rfl, fun m hm => by simp [Four.get_set_other _ _ hm], by simpa using hh, by simpa using ht, by simpa using hi, rfl⟩

theorem State.periodRun_bump (s : State) (ch : LineNo) (k : Counter) : s.PeriodRun ch (s.bump ch k) :=
  ⟨s.countersOf_bump ch k, fun _ _ => rfl, rfl, rfl, rfl, rfl⟩

theorem State.periodRun_giveMark (s : State) (ch : LineNo) (m : Mark) : s.PeriodRun ch (s.giveMark m) := by
  refine .of_eq (by simp) (by simp) ?_
  rw [State.giveMark_eq]

theorem State.periodRun_putRedundant (s : State) (ch : LineNo) (n : CellNo) (coding : Coding) (packing k : Nat) (fs : List Frame) :
    s.PeriodRun ch (s.putRedundant n coding packing k fs) := by
  rw [State.putRedundant_eq]
  exact .of_eq rfl rfl rfl

theorem State.periodRun_startPeriod (s : State) (ch : LineNo) (mode : Mode) : s.PeriodRun ch (s.startPeriod ch mode) := by
  rcases s.claim_or_starve with hstarve | ⟨n, rest, hs, hr⟩
  · rw [State.startPeriod_starved mode hstarve]
    refine (s.periodRun_setCap (c := (s.cap.get ch).started mode) rfl rfl rfl).trans ?_
    unfold State.starvePeriod
    dsimp only
    generalize s.setCap ch ((s.cap.get ch).started mode) = v
    have hstarved := (v.periodRun_setCap (ch := ch) (c := { v.cap.get ch with assembly := none, starving := true }) rfl rfl rfl).trans
      (State.periodRun_bump _ ch .starvedPeriods)
    split
    · exact hstarved
    · exact hstarved.trans (State.periodRun_giveMark _ ch _)
  · rw [State.startPeriod_claimed mode hs hr]
    refine State.PeriodRun.trans ?_ (State.periodRun_putRedundant _ ch n _ _ _ _)
    refine (State.PeriodRun.of_eq (s := s) (t := s.withClaimed ch n rest) rfl rfl rfl).trans ?_
    refine State.periodRun_setCap _ ?_ ?_ ?_ <;> rfl

theorem State.periodRun_joinPeriod (s : State) (ch : LineNo) (f : Frame) : s.PeriodRun ch (s.joinPeriod ch f) := by
  have hcoded : s.PeriodRun ch (s.codeFrame ch f) ∧ (s.codeFrame ch f).cap = s.cap := by
    unfold State.codeFrame
    split
    · exact ⟨.of_eq rfl rfl rfl, rfl⟩
    · exact ⟨.refl s ch, rfl⟩
  obtain ⟨hcoded, hcap⟩ := hcoded
  have hcounted : s.PeriodRun ch ((s.codeFrame ch f).setCap ch { s.cap.get ch with frames := (s.cap.get ch).frames + 1 }) :=
    hcoded.trans (State.periodRun_setCap _ (by rw [hcap]) (by rw [hcap]) (by rw [hcap]))
  rw [State.joinPeriod_eq]
  split
  · refine hcounted.trans ?_
    generalize (s.codeFrame ch f).setCap ch { s.cap.get ch with frames := (s.cap.get ch).frames + 1 } = v
    have hsent : v.PeriodRun ch (v.sendHeld ch) := by
      unfold State.sendHeld
      split
      · next n _ =>
        have hput : v.PeriodRun ch (v.putCell n 0 (outboundHeader ch (v.chan.get ch).params (v.cap.get ch))) := .of_eq rfl rfl rfl
        have hset := hput.trans (State.periodRun_setCap _ (ch := ch)
          (c := { v.cap.get ch with nextSeq := (v.cap.get ch).nextSeq + 1, spurt := false, assembly := none }) rfl rfl rfl)
        unfold State.sendParcel
        refine hset.trans (State.PeriodRun.trans ?_ (State.periodRun_bump _ ch .parcelsSent))
        exact .of_eq rfl rfl rfl
      · exact .refl v ch
    rw [State.endPeriod_eq]
    exact hsent.trans (State.periodRun_setCap _ rfl rfl rfl)
  · exact hcounted

theorem State.periodRun_periodStep (s : State) (ch : LineNo) (mode : Mode) (active : Bool) (f : Frame) :
    s.PeriodRun ch (s.periodStep ch mode active f) := by
  have hstart := (s.periodRun_startPeriod ch mode).trans (State.periodRun_joinPeriod _ ch f)
  unfold State.periodStep
  split
  · exact .refl s ch
  · exact s.periodRun_joinPeriod ch f
  · exact hstart
  · split
    · exact .refl s ch
    · exact hstart

end PeriodRun

/-- Settles O26: the frame judged, a period step that leaves the history, and the frame joined to the history. -/
theorem captureKeepsHistoryAndTimestamp : Obligations.CaptureKeepsHistoryAndTimestamp := by
  intro ch s ht c p u mode muted delivered f active inactive
  have hframe : u.captureFrame ch (u.frameMode ch) = f := by
    refine if_congr ?_ rfl rfl
    show (mode = .speech ∧ p.muteDigits = true ∧ s.mutingSignal ch = true) ↔ muted
    simp [State.mutingSignal, muted]
  have hinactive : inactiveAfter mode (frameActive p.vadThreshold f) c.inactive = inactive := inactiveAfter_eq _ _ _ _
  have hstep : u.captureStep ch = ((u.setCap ch { c with inactive := inactive }).periodStep ch mode (frameActive p.vadThreshold f) f).appendHistory
      ch f := by
    rw [← hinactive, State.captureStep_eq, hframe]
    rfl
  refine ⟨fun hs => exec_captureEvent_of_closed ht hs, fun hs => ⟨_, exec_captureEvent_of_open ht hs, ?_⟩, fun hs hsilent hmode hquiet => ?_⟩
  · rw [hstep]
    obtain ⟨⟨cs, r, hchan⟩, hothers, hhistory, htime, hrun, hrest⟩ :=
      (u.setCap ch { c with inactive := inactive }).periodRun_periodStep ch mode (frameActive p.vadThreshold f) f
    generalize (u.setCap ch { c with inactive := inactive }).periodStep ch mode (frameActive p.vadThreshold f) f = t at *
    simp only [State.setCap_cap, Four.get_set_same] at hhistory htime hrun
    unfold State.appendHistory
    dsimp only
    rw [hhistory, htime]
    refine ⟨by simp, by simp, by simpa using hrun, fun m hm => ?_, ?_, ?_⟩
    · have hcap : t.cap.get m = s.cap.get m := (hothers m hm).trans (Four.get_set_other _ _ hm)
      refine ⟨by simpa [Four.get_set_other _ _ hm] using hcap, ?_⟩
      simp only [State.setCap_chan, hchan, Four.get_set_other _ _ hm]
      rfl
    · simp only [State.setCap_chan, hchan, Four.get_set_same]
      rfl
    · rw [hrest]
      exact ⟨rfl, rfl, rfl, rfl, rfl, rfl, rfl, rfl, rfl, rfl⟩
  · have hidle : frameActive p.vadThreshold f = false := Bool.eq_false_iff.mpr fun e => hquiet ((frameActive_iff _ _).mp e)
    have hstate : ((u.setCap ch { c with inactive := inactive }).cap.get ch).state = .silent := by simpa using hsilent
    rw [exec_captureEvent_of_open ht hs, hstep]
    unfold State.periodStep
    simp only [hstate, hidle]
    have hboth : mode = .speech ∧ True := ⟨hmode, trivial⟩
    rw [if_pos hboth]
    unfold State.appendHistory
    simp [State.setCap]

/-! ### A period step by its capture record (R86 to R91) -/

section Record

variable (s : State) (ch : LineNo) (k : Capture)

theorem State.setCap_setCap (k' : Capture) : (s.setCap ch k).setCap ch k' = s.setCap ch k' := by simp [State.setCap]

theorem State.setCap_cap_get : (s.setCap ch k).cap.get ch = k := by simp

theorem State.appendHistory_setCap (f : Frame) :
    (s.setCap ch k).appendHistory ch f = s.setCap ch { k with history := (f :: k.history).take 3, tsCounter := k.tsCounter + 80 } := by
  simp [State.appendHistory, State.setCap]

/-- The capture record of a period that has ended (R91). -/
def Capture.ended (k : Capture) (hangover : Nat) : Capture := { k with state := stateAfterPeriod k.periodMode k.inactive hangover }

theorem State.endPeriod_setCap_none (hk : k.assembly = none) :
    (s.setCap ch k).endPeriod ch = s.setCap ch (k.ended (s.chan.get ch).params.hangover) := by
  have hheld : (s.setCap ch k).sendHeld ch = s.setCap ch k := by
    unfold State.sendHeld
    rw [State.setCap_cap_get, hk]
  rw [State.endPeriod_eq, hheld, State.setCap_cap_get, State.setCap_setCap]
  rfl

/-- A parcel completed and handed over (R90). -/
def State.parcelSent (s : State) (ch : LineNo) (n : CellNo) (k : Capture) : State :=
  ((s.putCell n 0 (outboundHeader ch (s.chan.get ch).params k)).handOver n stampOutParcel).bump ch .parcelsSent

theorem State.endPeriod_setCap_some {n : CellNo} (hk : k.assembly = some n) :
    (s.setCap ch k).endPeriod ch = (s.parcelSent ch n k).setCap ch
      (Capture.ended { k with nextSeq := k.nextSeq + 1, spurt := false, assembly := none } (s.chan.get ch).params.hangover) := by
  have hheld : (s.setCap ch k).sendHeld ch =
      (s.parcelSent ch n k).setCap ch { k with nextSeq := k.nextSeq + 1, spurt := false, assembly := none } := by
    unfold State.sendHeld
    rw [State.setCap_cap_get, hk]
    unfold State.sendParcel
    dsimp only
    rw [State.setCap_cap_get]
    unfold State.parcelSent State.bump State.handOver
    simp [State.putCell, State.setCap, State.setChan]
  have hparams : ((s.parcelSent ch n k).chan.get ch).params = (s.chan.get ch).params := by
    simp [State.parcelSent, State.bump, State.putCell]
  rw [State.endPeriod_eq, hheld, State.setCap_cap_get, State.setCap_setCap, State.setCap_chan, hparams]
  rfl

theorem State.joinPeriod_setCap_none (f : Frame) (hk : k.assembly = none) :
    (s.setCap ch k).joinPeriod ch f =
      if (s.chan.get ch).params.packing ≤ k.frames + 1 then
        s.setCap ch (Capture.ended { k with frames := k.frames + 1 } (s.chan.get ch).params.hangover)
      else s.setCap ch { k with frames := k.frames + 1 } := by
  have hcoded : (s.setCap ch k).codeFrame ch f = s.setCap ch k := by
    unfold State.codeFrame
    rw [State.setCap_cap_get, hk]
  rw [State.joinPeriod_eq, hcoded, State.setCap_cap_get, State.setCap_setCap, State.endPeriod_setCap_none _ _ { k with frames := k.frames + 1 } hk]
  rfl

theorem State.joinPeriod_setCap_some (f : Frame) {n : CellNo} (hk : k.assembly = some n) :
    (s.setCap ch k).joinPeriod ch f =
      if (s.chan.get ch).params.packing ≤ k.frames + 1 then
        ((s.putBlock n (s.chan.get ch).params.coding k.frames f).parcelSent ch n k).setCap ch
          (Capture.ended { k with frames := k.frames + 1, nextSeq := k.nextSeq + 1, spurt := false, assembly := none }
            (s.chan.get ch).params.hangover)
      else (s.putBlock n (s.chan.get ch).params.coding k.frames f).setCap ch { k with frames := k.frames + 1 } := by
  have hcoded : (s.setCap ch k).codeFrame ch f = (s.putBlock n (s.chan.get ch).params.coding k.frames f).setCap ch k := by
    unfold State.codeFrame
    rw [State.setCap_cap_get, hk]
    rfl
  rw [State.joinPeriod_eq, hcoded, State.setCap_cap_get, State.setCap_setCap, State.endPeriod_setCap_some _ _ { k with frames := k.frames + 1 } hk]
  rfl

end Record

/-- A period that starts starved, with the capture record that its first frame leaves: the counter, and a mark at the first (R88). -/
def State.starved (s : State) (ch : LineNo) (before : Bool) (seq : Half) (ts : Word) (k : Capture) : State :=
  let t := (s.setCap ch k).bump ch .starvedPeriods
  if before then t else t.giveLineMark .starved ch seq ts

theorem State.starvePeriod_setCap (s : State) (ch : LineNo) (k : Capture) :
    (s.setCap ch k).starvePeriod ch = s.starved ch k.starving k.nextSeq k.periodTs { k with assembly := none, starving := true } := by
  unfold State.starvePeriod State.starved
  dsimp only
  rw [State.setCap_cap_get, State.setCap_setCap]

theorem State.starved_setCap (s : State) (ch : LineNo) (before : Bool) (seq : Half) (ts : Word) (k k' : Capture) :
    (s.starved ch before seq ts k).setCap ch k' = s.starved ch before seq ts k' := by
  have hbump : ((s.setCap ch k).bump ch .starvedPeriods).setCap ch k' = (s.setCap ch k').bump ch .starvedPeriods := by
    simp [State.bump, State.setCap, State.setChan]
  unfold State.starved
  dsimp only
  split
  · exact hbump
  · unfold State.giveLineMark
    rw [← State.giveMark_setCap, hbump]
    rfl

/-- The first frame of a starved period: nothing is coded, and a period of one frame ends (R88, R91). -/
theorem State.joinPeriod_starved (s : State) (ch : LineNo) (before : Bool) (seq : Half) (ts : Word) (k : Capture) (f : Frame)
    (hk : k.assembly = none) :
    (s.starved ch before seq ts k).joinPeriod ch f = s.starved ch before seq ts
      (if (s.chan.get ch).params.packing ≤ k.frames + 1 then Capture.ended { k with frames := k.frames + 1 } (s.chan.get ch).params.hangover
        else { k with frames := k.frames + 1 }) := by
  have hparams : ((s.starved ch before seq ts k).chan.get ch).params = (s.chan.get ch).params := by
    unfold State.starved State.giveLineMark
    dsimp only
    split <;> simp [State.bump]
  have hjoin := State.joinPeriod_setCap_none (s.starved ch before seq ts k) ch k f hk
  rw [State.starved_setCap, State.starved_setCap, State.starved_setCap, hparams] at hjoin
  rw [hjoin]
  split <;> rfl

/-! ### The redundant blocks (R87) -/

theorem State.putRedundant_setCap (n : CellNo) (coding : Coding) (packing : Nat) (ch : LineNo) (c : Capture) (fs : List Frame) :
    ∀ (s : State) (k : Nat), (s.setCap ch c).putRedundant n coding packing k fs = (s.putRedundant n coding packing k fs).setCap ch c := by
  induction fs with
  | nil => exact fun s k => rfl
  | cons f fs ih => exact fun s k => ih (s.putBlock n coding (packing + k) f) (k + 1)

theorem State.putRedundant_concat (n : CellNo) (coding : Coding) (packing : Nat) (g : Frame) (fs : List Frame) : ∀ (s : State) (k : Nat),
    s.putRedundant n coding packing k (fs ++ [g]) =
      (s.putRedundant n coding packing k fs).putBlock n coding (packing + (k + fs.length)) g := by
  induction fs with
  | nil => exact fun s k => rfl
  | cons f fs ih =>
    intro s k
    have hlen : k + 1 + fs.length = k + (f :: fs).length := by rw [List.length_cons]; omega
    rw [← hlen]
    exact ih (s.putBlock n coding (packing + k) f) (k + 1)

/-- The newest frames of a history coded at block P and on, the newest first. -/
theorem State.putRedundant_take (s : State) (n : CellNo) (coding : Coding) (packing : Nat) (history : List Frame) (q : Nat)
    (hq : q ≤ history.length) :
    s.putRedundant n coding packing 0 (history.take q) =
      (List.range q).foldl (fun v j => v.putBlock n coding (packing + j) (history.getD j [])) s := by
  induction q with
  | zero => rfl
  | succ q ih =>
    have hlt : q < history.length := hq
    have htake : history.take (q + 1) = history.take q ++ [history.getD q []] := by
      rw [List.take_add_one, List.getD_eq_getElem?_getD, List.getElem?_eq_getElem hlt]
      rfl
    rw [htake, State.putRedundant_concat, ih hlt.le, List.range_succ, List.foldl_append, List.length_take, Nat.min_eq_left hlt.le, Nat.zero_add]
    rfl

/-! ### The events of O27 and O28 -/

/-- A capture event of an open channel, by its mode and frame. -/
theorem State.captureStep_undue (s : State) (ch : LineNo) {mode : Mode} (hmode : s.frameMode ch = mode) {f : Frame}
    (hf : s.captureFrame ch mode = f) {k : Capture}
    (hk : k = { s.cap.get ch with
      inactive := if mode = .steady ∨ (s.chan.get ch).params.vadThreshold = 0 ∨ (s.chan.get ch).params.vadThreshold ≤ energy f then 0
        else min 255 ((s.cap.get ch).inactive + 1) }) :
    (s.undue (.capture ch)).captureStep ch =
      (((s.undue (.capture ch)).setCap ch k).periodStep ch mode (frameActive (s.chan.get ch).params.vadThreshold f) f).appendHistory ch f := by
  subst hmode hf hk
  rw [← inactiveAfter_eq]
  rfl

theorem State.periodStep_starts {s : State} {ch : LineNo} {mode : Mode} {active : Bool} (f : Frame)
    (h : (s.cap.get ch).state = .sending ∨ (s.cap.get ch).state = .silent ∧ (mode = .steady ∨ active = true)) :
    s.periodStep ch mode active f = (s.startPeriod ch mode).joinPeriod ch f := by
  unfold State.periodStep
  rcases h with h | ⟨h, hgo⟩
  · simp only [h]
  · simp only [h]
    refine if_neg ?_
    rintro ⟨hm, ha⟩
    rcases hgo with hgo | hgo
    · exact Mode.noConfusion (hm.symm.trans hgo)
    · exact Bool.noConfusion (ha.symm.trans hgo)

theorem State.periodStep_packing {s : State} {ch : LineNo} (mode : Mode) (active : Bool) (f : Frame) (h : (s.cap.get ch).state = .packing) :
    s.periodStep ch mode active f = s.joinPeriod ch f := by
  unfold State.periodStep
  simp only [h]

/-- Settles O28: the last frame of a period is coded, the parcel sent, the period ended, and the frame joins the history. -/
theorem captureHandsOverTheParcel : Obligations.CaptureHandsOverTheParcel := by
  intro ch s n ht hs c p f active inactive header hpack hcell hlast
  obtain ⟨k, hk⟩ : ∃ k : Capture, k = { c with inactive := inactive } := ⟨_, rfl⟩
  have hpack' : (((s.undue (.capture ch)).setCap ch k).cap.get ch).state = .packing := by rw [State.setCap_cap_get, hk]; exact hpack
  have hcell' : k.assembly = some n := by rw [hk]; exact hcell
  have hlast' : ((s.undue (.capture ch)).chan.get ch).params.packing ≤ k.frames + 1 := by rw [hk]; exact hlast.ge
  rw [exec_captureEvent_of_open ht hs, s.captureStep_undue ch (if_pos hpack) rfl hk, State.periodStep_packing _ _ _ hpack',
    State.joinPeriod_setCap_some _ _ _ _ hcell', if_pos hlast', State.appendHistory_setCap]
  unfold Capture.ended
  rw [stateAfterPeriod_eq, hk]
  rfl

/-- Settles O27: a period that starts, starved or with the oldest spare cell, and a later frame with and without a cell. -/
theorem capturePeriodsClaimRunAndStarve : Obligations.CapturePeriodsClaimRunAndStarve := by
  intro ch s ht hs c p u mode f active inactive ended kept started starved
  obtain ⟨k, hk⟩ : ∃ k : Capture, k = { c with inactive := inactive } := ⟨_, rfl⟩
  rw [exec_captureEvent_of_open ht hs, s.captureStep_undue ch (mode := mode) (f := f) rfl rfl hk]
  have hparams : ((s.undue (.capture ch)).chan.get ch).params = p := rfl
  have hended : ended = stateAfterPeriod mode inactive p.hangover := (stateAfterPeriod_eq _ _ _).symm
  refine ⟨fun hstart => ?starts, fun hpack => ?runs⟩
  case starts =>
    have hgo : (((s.undue (.capture ch)).setCap ch k).cap.get ch).state = .sending ∨
        (((s.undue (.capture ch)).setCap ch k).cap.get ch).state = .silent ∧
          (mode = .steady ∨ frameActive (s.chan.get ch).params.vadThreshold f = true) := by
      rw [State.setCap_cap_get, frameActive_iff, hk]
      exact hstart
    rw [State.periodStep_starts f hgo]
    refine ⟨fun hempty => ?starved, fun n rest hspare hreserve => ?claimed⟩
    case starved =>
      rw [State.startPeriod_starved (s := (s.undue (.capture ch)).setCap ch k) mode hempty, State.setCap_cap_get, State.setCap_setCap, State.starvePeriod_setCap,
        State.joinPeriod_starved _ _ _ _ _ _ _ rfl, hparams, ← State.starved_setCap _ _ _ _ _ k, State.appendHistory_setCap,
        State.starved_setCap]
      refine ⟨fun hp => ?_, fun hp => ?_⟩
      · rw [if_neg (by show ¬ _ ≤ 0 + 1; omega), hk]
        rfl
      · rw [if_pos (by show _ ≤ 0 + 1; omega), hk, hended]
        rfl
    case claimed =>
      intro q claimed coded cap
      have hq : periodRedundancy mode p.redundancy k.history = q := by
        rw [hk]
        unfold periodRedundancy q
        cases mode <;> rfl
      have hle : q ≤ k.history.length := by
        rw [← hq]
        cases mode with
        | speech => exact Nat.zero_le _
        | steady => exact Nat.min_le_right _ _
      obtain ⟨v, hv⟩ : ∃ v : State, v = claimed.putRedundant n p.coding p.packing 0 (k.history.take q) := ⟨_, rfl⟩
      obtain ⟨b, hb⟩ : ∃ b : Capture, b = { k.started mode with assembly := some n, starving := false, periodQ := q } := ⟨_, rfl⟩
      have hbegun : ((s.undue (.capture ch)).setCap ch k).startPeriod ch mode = v.setCap ch b := by
        have hclaimed := State.startPeriod_claimed (s := (s.undue (.capture ch)).setCap ch k) (ch := ch) mode hspare hreserve
        have hset : ((s.undue (.capture ch)).setCap ch k).withClaimed ch n rest = claimed.setCap ch k := rfl
        rw [State.setCap_cap_get, State.setCap_chan, hparams, hq, ← hb, hset, State.setCap_setCap, State.putRedundant_setCap, ← hv] at hclaimed
        exact hclaimed
      have hcell : b.assembly = some n := by rw [hb]
      have hframes : b.frames = 0 := by rw [hb]; rfl
      have hvparams : (v.chan.get ch).params = p := by
        rw [hv, State.putRedundant_eq]
        rfl
      have hcoded : v.putBlock n p.coding 0 f = coded := by
        rw [hv, State.putRedundant_take _ _ _ _ _ _ hle, hk]
        rfl
      rw [hbegun, State.joinPeriod_setCap_some _ _ _ _ hcell, hvparams, hframes, hcoded]
      refine ⟨fun hp => ?_, fun hp => ?_⟩
      · rw [if_neg (show ¬ p.packing ≤ 0 + 1 by omega), State.appendHistory_setCap, hb, hk]
        rfl
      · intro header
        rw [if_pos (show p.packing ≤ 0 + 1 by omega), State.appendHistory_setCap]
        have hheader : outboundHeader ch (coded.chan.get ch).params b = header := by
          have hcparams : (coded.chan.get ch).params = p := by rw [← hcoded]; exact hvparams
          rw [hcparams, hb, hk]
          unfold outboundHeader
          rw [hp]
          rfl
        unfold State.parcelSent
        rw [hheader, hb, hk, hended]
        rfl
  case runs =>
    have hpack' : (((s.undue (.capture ch)).setCap ch k).cap.get ch).state = .packing := by rw [State.setCap_cap_get, hk]; exact hpack
    have hmode : mode = c.periodMode := if_pos hpack
    have hframes : k.frames = c.frames := by rw [hk]
    have hcell : k.assembly = c.assembly := by rw [hk]
    rw [State.periodStep_packing _ _ _ hpack']
    refine ⟨fun hmore => ?later, fun hlast hnone => ?last⟩
    case later =>
      have hnot : ¬ p.packing ≤ k.frames + 1 := by omega
      cases hc : c.assembly with
      | none =>
        rw [State.joinPeriod_setCap_none _ _ _ _ (hcell.trans hc), hparams, if_neg hnot, State.appendHistory_setCap, hk]
        dsimp only
        rw [hc]
      | some n =>
        rw [State.joinPeriod_setCap_some _ _ _ _ (hcell.trans hc), hparams, if_neg hnot, State.appendHistory_setCap, hk]
        dsimp only
        rw [hc]
        rfl
    case last =>
      rw [State.joinPeriod_setCap_none _ _ _ _ (hcell.trans hnone), hparams, if_pos (hframes ▸ hlast), State.appendHistory_setCap, hk, hended,
        hmode]
      rfl

end Sys2Proof.Machine

/-! ## Level arithmetic: saturation, gain, scaling and energy (R97, R104 to R106) -/

namespace Sys2Proof.Machine

/-! ### Saturation and truncated division -/

theorem clampInt_eq {lo hi : Int} (h : lo ≤ hi) (v : Int) : clampInt v lo hi = max lo (min hi v) := by
  unfold clampInt
  split
  · omega
  · split <;> omega

theorem sat_toInt (v : Int) : (sat v).toInt = max (-8192) (min 8191 v) := by
  rw [sat, clampInt_eq (by decide)]
  exact BitVec.toInt_ofInt_eq_self (by decide) (by omega) (by omega)

theorem sat_toInt_of_mem {v : Int} (hlo : -8192 ≤ v) (hhi : v ≤ 8191) : (sat v).toInt = v := by
  rw [sat_toInt]
  omega

/-- Truncated division by a positive number stays within bounds that its multiples leave. -/
theorem tdiv_mem {v d lo hi : Int} (hd : 0 < d) (hlo : lo * d ≤ v) (hlo0 : lo ≤ 0) (hhi : v < (hi + 1) * d) (hhi0 : 0 ≤ hi) :
    lo ≤ v.tdiv d ∧ v.tdiv d ≤ hi := by
  rcases le_total 0 v with h | h
  · rw [Int.tdiv_eq_ediv_of_nonneg h]
    exact ⟨hlo0.trans (Int.ediv_nonneg h hd.le), Int.le_of_lt_add_one (Int.ediv_lt_of_lt_mul hd hhi)⟩
  · have hneg : v.tdiv d = -(-v / d) := by
      rw [← Int.tdiv_eq_ediv_of_nonneg (by omega), Int.neg_tdiv, neg_neg]
    have hle : -v / d ≤ -lo := Int.ediv_le_of_le_mul hd (by rw [Int.neg_mul]; omega)
    have hnonneg : 0 ≤ -v / d := Int.ediv_nonneg (by omega) hd.le
    omega

theorem gainSample_toInt (g : Nat) (x : Sample) : (gainSample g x).toInt = max (-8192) (min 8191 ((x.toInt * (g : Int)).tdiv 16)) :=
  sat_toInt _

theorem gainSample_toInt_of_le {g : Nat} (x : Sample) (hg : g ≤ 15) : (gainSample g x).toInt = (x.toInt * (g : Int)).tdiv 16 := by
  have hx := toInt_mem_sample x
  have hbound : -8192 * 16 ≤ x.toInt * g ∧ x.toInt * g < (8191 + 1) * 16 := by
    constructor <;> nlinarith [hx.1, hx.2, (by exact_mod_cast hg : (g : Int) ≤ 15), Int.natCast_nonneg g]
  obtain ⟨hlo, hhi⟩ := tdiv_mem (by decide) hbound.1 (by decide) hbound.2 (by decide)
  exact sat_toInt_of_mem hlo hhi

theorem gainSample_unit (x : Sample) : gainSample 16 x = x := by
  have hx := toInt_mem_sample x
  refine BitVec.eq_of_toInt_eq ?_
  rw [gainSample_toInt]
  have hdiv : (x.toInt * ((16 : Nat) : Int)).tdiv 16 = x.toInt := Int.mul_tdiv_cancel _ (by decide)
  omega

theorem gainSample_zero (x : Sample) : gainSample 0 x = 0 := by
  refine BitVec.eq_of_toInt_eq ?_
  rw [gainSample_toInt]
  simp

/-- Scaling by at most three quarters never saturates (R105). -/
theorem quarters_mem {k : Nat} (hk : k ≤ 3) (x : Sample) :
    -6144 ≤ (x.toInt * (k : Int)).tdiv 4 ∧ (x.toInt * (k : Int)).tdiv 4 ≤ 6143 := by
  have hx := toInt_mem_sample x
  have hk3 : (k : Int) ≤ 3 := by exact_mod_cast hk
  exact tdiv_mem (by decide) (by nlinarith [Int.natCast_nonneg k]) (by decide) (by nlinarith [Int.natCast_nonneg k]) (by decide)

theorem quarters_toInt {k : Nat} (hk : k ≤ 3) (x : Sample) :
    (sat ((x.toInt * (k : Int)).tdiv 4)).toInt = (x.toInt * (k : Int)).tdiv 4 := by
  obtain ⟨hlo, hhi⟩ := quarters_mem hk x
  exact sat_toInt_of_mem (by omega) (by omega)

/-! ### The energy figure (R106) -/

theorem magnitudeSum_eq (f : Frame) : magnitudeSum f = (f.map fun x => x.toInt.natAbs).sum := by
  unfold magnitudeSum
  rw [List.sum_eq_foldl, List.foldl_map]

theorem magnitudeSum_le (f : Frame) : (f.map fun x => x.toInt.natAbs).sum ≤ 8192 * f.length := by
  have h := List.sum_le_card_nsmul (f.map fun x => x.toInt.natAbs) 8192 (by
    intro m hm
    obtain ⟨x, -, rfl⟩ := List.mem_map.mp hm
    have hx := toInt_mem_sample x
    omega)
  rw [List.length_map, smul_eq_mul] at h
  omega

/-- Settles O31: the energy figure by the sum of the magnitudes, gain and scaling by the bounds of truncated division. -/
theorem energyGainAndScaling : Obligations.EnergyGainAndScaling := by
  refine ⟨⟨fun f => ?mean, fun f hf => ?range, fun f g hperm => ?order, ?silent, ?loudest, fun threshold f => frameActive_iff threshold f⟩,
    fun g x _ => gainSample_toInt g x, fun x => ⟨gainSample_unit x, gainSample_zero x⟩, fun g x hg => gainSample_toInt_of_le x hg,
    fun k f hk => ⟨?scaled, ?within, ?zero⟩⟩
  case mean =>
    unfold energy
    rw [magnitudeSum_eq]
    omega
  case range =>
    have hsum := magnitudeSum_le f
    unfold energy
    rw [magnitudeSum_eq]
    omega
  case order =>
    unfold energy
    rw [magnitudeSum_eq, magnitudeSum_eq, hperm.sum_eq]
  case silent =>
    unfold energy
    rw [magnitudeSum_eq, List.map_replicate, List.sum_replicate]
    rfl
  case loudest =>
    unfold energy
    rw [magnitudeSum_eq, List.map_replicate, List.sum_replicate]
    rfl
  case scaled =>
    unfold scaleQuarters
    rw [List.map_map]
    exact List.map_congr_left fun x _ => quarters_toInt hk x
  case within =>
    intro y hy
    obtain ⟨x, -, rfl⟩ := List.mem_map.mp hy
    rw [quarters_toInt hk]
    exact quarters_mem hk x
  case zero =>
    rintro rfl
    unfold scaleQuarters
    rw [List.eq_replicate_iff, List.length_map]
    refine ⟨rfl, fun y hy => ?_⟩
    obtain ⟨x, -, rfl⟩ := List.mem_map.mp hy
    refine BitVec.eq_of_toInt_eq ?_
    rw [quarters_toInt (by decide)]
    simp

end Sys2Proof.Machine

/-! ## µ-law and A-law (R98 to R101), and blocks of cells (R103) -/

namespace Sys2Proof.Machine

/-! ### Segments and mantissas -/

/-- A number written as 16 + `mant` units of a power of two and a remainder below the unit: its leading bit gives the power, its next four
the mantissa. -/
theorem log2_of_segment {m e mant r : Nat} (hm : m = 2 ^ e * (16 + mant) + r) (hmant : mant < 16) (hr : r < 2 ^ e) :
    m.log2 = e + 4 ∧ m / 2 ^ e % 16 = mant := by
  have hp : 0 < 2 ^ e := Nat.two_pow_pos e
  have hle : 2 ^ e * (16 + mant) ≤ 2 ^ e * 31 := Nat.mul_le_mul_left _ (by omega)
  have hge : 2 ^ e * 16 ≤ 2 ^ e * (16 + mant) := Nat.mul_le_mul_left _ (by omega)
  constructor
  · rw [Nat.log2_eq_iff (by omega), Nat.pow_add, show e + 4 + 1 = e + 5 from rfl, Nat.pow_add]
    omega
  · rw [hm, Nat.mul_add_div hp, Nat.div_eq_of_lt hr]
    omega

/-- A number of at least 16 is so written in one way. -/
theorem exists_segment {m : Nat} (h : 16 ≤ m) : ∃ mant r, m = 2 ^ (m.log2 - 4) * (16 + mant) + r ∧ mant < 16 ∧ r < 2 ^ (m.log2 - 4) := by
  have hne : m ≠ 0 := by omega
  have h4 : 4 ≤ m.log2 := (Nat.le_log2 hne).mpr h
  obtain ⟨hlo, hhi⟩ := (Nat.log2_eq_iff hne).mp (rfl : m.log2 = m.log2)
  generalize m.log2 = l at *
  obtain ⟨e, rfl⟩ := Nat.exists_eq_add_of_le' h4
  rw [Nat.add_sub_cancel]
  have hp : 0 < 2 ^ e := Nat.two_pow_pos e
  rw [show e + 4 + 1 = e + 5 from rfl, Nat.pow_add] at hhi
  rw [Nat.pow_add] at hlo
  have hdiv : 16 ≤ m / 2 ^ e ∧ m / 2 ^ e < 32 :=
    ⟨(Nat.le_div_iff_mul_le hp).mpr (by omega), (Nat.div_lt_iff_lt_mul hp).mpr (by omega)⟩
  refine ⟨m / 2 ^ e - 16, m % 2 ^ e, ?_, by omega, Nat.mod_lt _ hp⟩
  rw [Nat.add_sub_cancel' hdiv.1]
  exact (Nat.div_add_mod m (2 ^ e)).symm

/-! ### µ-law (R98, R99) -/

/-- The magnitude of a µ-law code (R99). -/
def muMagnitude (seg mant : Nat) : Int := (2 * mant + 33) * 2 ^ seg - 33

/-- The magnitude of an A-law code (R101). -/
def aMagnitude (seg mant : Nat) : Int := 2 * if seg = 0 then 2 * mant + 1 else (2 * mant + 33) * 2 ^ (seg - 1)

theorem muMagnitude_mem {seg mant : Nat} (hs : seg < 8) (hm : mant < 16) : 0 ≤ muMagnitude seg mant ∧ muMagnitude seg mant ≤ 8031 := by
  unfold muMagnitude
  interval_cases seg <;> omega

theorem aMagnitude_mem {seg mant : Nat} (hs : seg < 8) (hm : mant < 16) : 2 ≤ aMagnitude seg mant ∧ aMagnitude seg mant ≤ 8064 := by
  unfold aMagnitude
  interval_cases seg <;> simp <;> omega

theorem decodeMu_toInt (c : Byte) :
    (decodeMu c).toInt = if 128 ≤ (c ^^^ 0xFF).toNat then -muMagnitude ((c ^^^ 0xFF).toNat / 16 % 8) ((c ^^^ 0xFF).toNat % 16)
      else muMagnitude ((c ^^^ 0xFF).toNat / 16 % 8) ((c ^^^ 0xFF).toNat % 16) := by
  have hmem := muMagnitude_mem (seg := (c ^^^ 0xFF).toNat / 16 % 8) (mant := (c ^^^ 0xFF).toNat % 16) (by omega) (by omega)
  have hmag : (((2 * ((c ^^^ 0xFF).toNat % 16) + 33) * 2 ^ ((c ^^^ 0xFF).toNat / 16 % 8) : Nat) - 33 : Int) =
      muMagnitude ((c ^^^ 0xFF).toNat / 16 % 8) ((c ^^^ 0xFF).toNat % 16) := by
    unfold muMagnitude
    push_cast
    rfl
  unfold decodeMu
  dsimp only
  rw [hmag]
  exact BitVec.toInt_ofInt_eq_self (by decide) (by split <;> omega) (by split <;> omega)

theorem decodeA_toInt (c : Byte) :
    (decodeA c).toInt = if 128 ≤ (c ^^^ 0x55).toNat then aMagnitude ((c ^^^ 0x55).toNat / 16 % 8) ((c ^^^ 0x55).toNat % 16)
      else -aMagnitude ((c ^^^ 0x55).toNat / 16 % 8) ((c ^^^ 0x55).toNat % 16) := by
  have hmem := aMagnitude_mem (seg := (c ^^^ 0x55).toNat / 16 % 8) (mant := (c ^^^ 0x55).toNat % 16) (by omega) (by omega)
  have hmag : 2 * (if (c ^^^ 0x55).toNat / 16 % 8 = 0 then ((2 * ((c ^^^ 0x55).toNat % 16) + 1 : Nat) : Int)
      else (((2 * ((c ^^^ 0x55).toNat % 16) + 33) * 2 ^ ((c ^^^ 0x55).toNat / 16 % 8 - 1) : Nat) : Int)) =
      aMagnitude ((c ^^^ 0x55).toNat / 16 % 8) ((c ^^^ 0x55).toNat % 16) := by
    unfold aMagnitude
    push_cast
    rfl
  unfold decodeA
  dsimp only
  rw [hmag]
  exact BitVec.toInt_ofInt_eq_self (by decide) (by split <;> omega) (by split <;> omega)

theorem decodeMu_natAbs_le (c : Byte) : (decodeMu c).toInt.natAbs ≤ 8031 := by
  obtain ⟨hlo, hhi⟩ := muMagnitude_mem (seg := (c ^^^ 0xFF).toNat / 16 % 8) (mant := (c ^^^ 0xFF).toNat % 16) (by omega) (by omega)
  rw [decodeMu_toInt]
  split <;> omega

theorem decodeA_natAbs_mem (c : Byte) : 2 ≤ (decodeA c).toInt.natAbs ∧ (decodeA c).toInt.natAbs ≤ 8064 := by
  obtain ⟨hlo, hhi⟩ := aMagnitude_mem (seg := (c ^^^ 0x55).toNat / 16 % 8) (mant := (c ^^^ 0x55).toNat % 16) (by omega) (by omega)
  rw [decodeA_toInt]
  split <;> omega

/-- The sign bit of a µ-law code. -/
theorem byteOf_xor_sign {v : Nat} (hv : v < 128) (nonneg : Prop) [Decidable nonneg] :
    (byteOf v ^^^ (if nonneg then 0xFF else 0x7F) ^^^ 0xFF).toNat = v + if nonneg then 0 else 128 := by
  have hneg : ∀ w : Fin 128, (byteOf w.val ^^^ 0x7F ^^^ 0xFF).toNat = w.val + 128 := by decide
  split
  · rw [BitVec.xor_assoc, BitVec.xor_self, BitVec.xor_zero, byteOf, BitVec.toNat_ofNat]
    omega
  · exact hneg ⟨v, hv⟩

/-- A µ-law code, by the segment and the mantissa of the biased magnitude (R98). -/
theorem encodeMu_of_segment {x : Sample} {seg mant r : Nat} (hm : min x.toInt.natAbs 8158 + 33 = 2 ^ (seg + 1) * (16 + mant) + r)
    (hmant : mant < 16) (hr : r < 2 ^ (seg + 1)) :
    encodeMu x = byteOf (16 * seg + mant) ^^^ (if 0 ≤ x.toInt then 0xFF else 0x7F) := by
  obtain ⟨hlog, hfield⟩ := log2_of_segment hm hmant hr
  have hseg : (min x.toInt.natAbs 8158 + 33).log2 - 5 = seg := by omega
  unfold encodeMu
  dsimp only
  rw [hseg, hfield]

/-- The biased magnitude of a sample in its segment, and the code's fields (R98). -/
theorem encodeMu_fields (x : Sample) : ∃ seg mant r : Nat, seg < 8 ∧ mant < 16 ∧ r < 2 ^ (seg + 1) ∧
    min x.toInt.natAbs 8158 + 33 = 2 ^ (seg + 1) * (16 + mant) + r ∧
    (encodeMu x ^^^ 0xFF).toNat = 16 * seg + mant + if 0 ≤ x.toInt then 0 else 128 := by
  obtain ⟨mant, r, hm, hmant, hr⟩ := exists_segment (m := min x.toInt.natAbs 8158 + 33) (by omega)
  have hlow : 5 ≤ (min x.toInt.natAbs 8158 + 33).log2 := (Nat.le_log2 (by omega)).mpr (by omega)
  have hhigh : (min x.toInt.natAbs 8158 + 33).log2 < 13 := (Nat.log2_lt (by omega)).mpr (by omega)
  obtain ⟨seg, hseg⟩ : ∃ seg, (min x.toInt.natAbs 8158 + 33).log2 - 4 = seg + 1 := ⟨(min x.toInt.natAbs 8158 + 33).log2 - 5, by omega⟩
  rw [hseg] at hm hr
  refine ⟨seg, mant, r, by omega, hmant, hr, hm, ?_⟩
  rw [encodeMu_of_segment hm hmant hr]
  exact byteOf_xor_sign (by omega) _

theorem muMagnitude_segment (seg mant : Nat) : muMagnitude seg mant + 33 = (2 ^ (seg + 1) * (16 + mant) + 2 ^ seg : Nat) := by
  unfold muMagnitude
  push_cast
  ring

/-- The code of a decoded code is that code, but for the second code of 0. -/
theorem encodeMu_decodeMu {c : Byte} (hc : c ≠ 0x7F) : encodeMu (decodeMu c) = c := by
  have hx := decodeMu_toInt c
  have hlt : (c ^^^ 0xFF).toNat < 256 := BitVec.isLt _
  have hzero : (c ^^^ 0xFF).toNat ≠ 128 := by
    intro e
    have hxor : c ^^^ 0xFF = 0x80 := BitVec.eq_of_toNat_eq e
    exact hc (by rw [← BitVec.xor_zero (x := c), ← BitVec.xor_self (x := (0xFF : Byte)), ← BitVec.xor_assoc, hxor]; rfl)
  generalize hseg : (c ^^^ 0xFF).toNat / 16 % 8 = seg at hx
  generalize hmant : (c ^^^ 0xFF).toNat % 16 = mant at hx
  obtain ⟨hlo, hhi⟩ := muMagnitude_mem (seg := seg) (mant := mant) (by omega) (by omega)
  have hmag := muMagnitude_segment seg mant
  have hpos : 128 ≤ (c ^^^ 0xFF).toNat → 0 < muMagnitude seg mant := by
    intro hneg
    have hnot : seg ≠ 0 ∨ mant ≠ 0 := by omega
    have hp : 2 ≤ 2 ^ (seg + 1) := Nat.pow_le_pow_right (n := 2) (by decide) (by omega : 1 ≤ seg + 1)
    have hunit : 0 < 2 ^ seg := Nat.two_pow_pos seg
    rcases hnot with h | h
    · have hp4 : 2 ^ 2 ≤ 2 ^ (seg + 1) := Nat.pow_le_pow_right (by decide) (by omega)
      have := Nat.mul_le_mul hp4 (show 16 ≤ 16 + mant by omega)
      omega
    · have := Nat.mul_le_mul hp (show 17 ≤ 16 + mant by omega)
      omega
  have hsign : 0 ≤ (decodeMu c).toInt ↔ (c ^^^ 0xFF).toNat < 128 := by
    rw [hx]
    split <;> omega
  have habs : min (decodeMu c).toInt.natAbs 8158 + 33 = 2 ^ (seg + 1) * (16 + mant) + 2 ^ seg := by
    have : (decodeMu c).toInt.natAbs = (muMagnitude seg mant).natAbs := by
      rw [hx]
      split <;> omega
    omega
  rw [encodeMu_of_segment habs (by omega) (Nat.pow_lt_pow_right (by decide) (by omega))]
  have hcode := byteOf_xor_sign (v := 16 * seg + mant) (by omega) (0 ≤ (decodeMu c).toInt)
  refine (BitVec.xor_left_inj 0xFF).mp (BitVec.eq_of_toNat_eq (hcode.trans ?_))
  simp only [hsign]
  split <;> omega

/-- A sample coded and decoded in µ-law keeps its sign, and lies within half a step (R98, R99). -/
theorem mu_roundtrip (x : Sample) :
    (0 ≤ x.toInt → 0 ≤ (decodeMu (encodeMu x)).toInt) ∧ (x.toInt < 0 → (decodeMu (encodeMu x)).toInt ≤ 0) ∧
    2 * ((min x.toInt.natAbs 8158 : Nat) - ((decodeMu (encodeMu x)).toInt.natAbs : Int)).natAbs ≤
      2 * 2 ^ ((encodeMu x ^^^ 0xFF).toNat / 16 % 8) := by
  obtain ⟨seg, mant, r, hseg, hmant, hr, hm, hcode⟩ := encodeMu_fields x
  have hmag := muMagnitude_segment seg mant
  obtain ⟨hlo, hhi⟩ := muMagnitude_mem hseg hmant
  have hfields : (encodeMu x ^^^ 0xFF).toNat / 16 % 8 = seg ∧ (encodeMu x ^^^ 0xFF).toNat % 16 = mant ∧
      (128 ≤ (encodeMu x ^^^ 0xFF).toNat ↔ x.toInt < 0) := by
    rw [hcode]
    split <;> omega
  obtain ⟨hs, ht, hsign⟩ := hfields
  have hx := decodeMu_toInt (encodeMu x)
  simp only [hs, ht, hsign] at hx
  have habs : (decodeMu (encodeMu x)).toInt.natAbs = (muMagnitude seg mant).natAbs := by
    rw [hx]
    split <;> omega
  rw [hs, habs]
  refine ⟨fun h => ?_, fun h => ?_, ?_⟩
  · rw [hx, if_neg (by omega)]
    exact hlo
  · rw [hx, if_pos h]
    omega
  · have hpow : 2 ^ (seg + 1) = 2 * 2 ^ seg := Nat.pow_succ'
    omega

/-! ### A-law (R100, R101) -/

/-- An A-law code, by the segment and the mantissa of the halved magnitude (R100). -/
theorem encodeA_of_segment {x : Sample} {seg mant r : Nat}
    (hm : min (x.toInt / 2).natAbs 4095 = if seg = 0 then 2 * mant + r else 2 ^ seg * (16 + mant) + r)
    (hmant : mant < 16) (hr : r < if seg = 0 then 2 else 2 ^ seg) :
    encodeA x = byteOf ((if 0 ≤ x.toInt / 2 then 128 else 0) + 16 * seg + mant) ^^^ 0x55 := by
  unfold encodeA
  dsimp only
  by_cases h : seg = 0
  · rw [if_pos h] at hm hr
    have hsmall : min (x.toInt / 2).natAbs 4095 < 32 := by omega
    rw [if_pos hsmall, if_pos hsmall, h, show min (x.toInt / 2).natAbs 4095 / 2 = mant by omega]
  · rw [if_neg h] at hm hr
    obtain ⟨hlog, hfield⟩ := log2_of_segment hm hmant hr
    have hlarge : ¬ min (x.toInt / 2).natAbs 4095 < 32 := by
      have hp : 2 ^ 1 ≤ 2 ^ seg := Nat.pow_le_pow_right (by decide) (by omega)
      have := Nat.mul_le_mul hp (show 16 ≤ 16 + mant by omega)
      omega
    have hseg : (min (x.toInt / 2).natAbs 4095).log2 - 4 = seg := by omega
    rw [if_neg hlarge, if_neg hlarge, hseg, hfield]

theorem encodeA_fields (x : Sample) : ∃ seg mant r : Nat, seg < 8 ∧ mant < 16 ∧ (r < if seg = 0 then 2 else 2 ^ seg) ∧
    (min (x.toInt / 2).natAbs 4095 = if seg = 0 then 2 * mant + r else 2 ^ seg * (16 + mant) + r) ∧
    (encodeA x ^^^ 0x55).toNat = 16 * seg + mant + if 0 ≤ x.toInt then 128 else 0 := by
  obtain ⟨seg, mant, r, hseg, hmant, hr, hm⟩ : ∃ seg mant r : Nat, seg < 8 ∧ mant < 16 ∧ (r < if seg = 0 then 2 else 2 ^ seg) ∧
      (min (x.toInt / 2).natAbs 4095 = if seg = 0 then 2 * mant + r else 2 ^ seg * (16 + mant) + r) := by
    by_cases h : min (x.toInt / 2).natAbs 4095 < 32
    · refine ⟨0, min (x.toInt / 2).natAbs 4095 / 2, min (x.toInt / 2).natAbs 4095 % 2, by decide, by omega, ?_, ?_⟩
      · rw [if_pos rfl]; omega
      · rw [if_pos rfl]; omega
    · obtain ⟨mant, r, hm, hmant, hr⟩ := exists_segment (m := min (x.toInt / 2).natAbs 4095) (by omega)
      have hlow : 5 ≤ (min (x.toInt / 2).natAbs 4095).log2 := (Nat.le_log2 (by omega)).mpr (by omega)
      have hhigh : (min (x.toInt / 2).natAbs 4095).log2 < 12 := (Nat.log2_lt (by omega)).mpr (by omega)
      refine ⟨(min (x.toInt / 2).natAbs 4095).log2 - 4, mant, r, by omega, hmant, ?_, ?_⟩
      · rw [if_neg (by omega)]; exact hr
      · rw [if_neg (by omega)]; exact hm
  refine ⟨seg, mant, r, hseg, hmant, hr, hm, ?_⟩
  rw [encodeA_of_segment hm hmant hr, BitVec.xor_assoc, BitVec.xor_self, BitVec.xor_zero, byteOf, BitVec.toNat_ofNat]
  split <;> split <;> omega

/-- Half of an A-law magnitude, in its segment. -/
theorem aMagnitude_segment (seg mant : Nat) :
    aMagnitude seg mant = 2 * ((if seg = 0 then 2 * mant + 1 else 2 ^ seg * (16 + mant) + 2 ^ (seg - 1) : Nat) : Int) := by
  unfold aMagnitude
  by_cases h : seg = 0
  · simp [h]
  · obtain ⟨e, rfl⟩ := Nat.exists_eq_add_of_le' (Nat.one_le_iff_ne_zero.mpr h)
    simp only [h, if_false, Nat.add_sub_cancel]
    push_cast
    ring

theorem encodeA_decodeA (c : Byte) : encodeA (decodeA c) = c := by
  have hx := decodeA_toInt c
  have hlt : (c ^^^ 0x55).toNat < 256 := BitVec.isLt _
  generalize hseg : (c ^^^ 0x55).toNat / 16 % 8 = seg at hx
  generalize hmant : (c ^^^ 0x55).toNat % 16 = mant at hx
  obtain ⟨hlo, hhi⟩ := aMagnitude_mem (seg := seg) (mant := mant) (by omega) (by omega)
  have hmag := aMagnitude_segment seg mant
  have hhalf : min ((decodeA c).toInt / 2).natAbs 4095 = if seg = 0 then 2 * mant + 1 else 2 ^ seg * (16 + mant) + 2 ^ (seg - 1) := by
    rw [hx]
    split at hmag <;> split <;> omega
  have hcode := encodeA_of_segment (seg := seg) (mant := mant) (r := if seg = 0 then 1 else 2 ^ (seg - 1))
    (by rw [hhalf]; split <;> rfl) (by omega)
    (by split <;> [decide; exact Nat.pow_lt_pow_right (by decide) (by omega)])
  have hu : (if 0 ≤ (decodeA c).toInt / 2 then 128 else 0) + 16 * seg + mant = (c ^^^ 0x55).toNat := by
    rw [hx]
    split <;> split <;> omega
  rw [hcode, hu, byteOf, BitVec.ofNat_toNat, BitVec.setWidth_eq, BitVec.xor_assoc, BitVec.xor_self, BitVec.xor_zero]

/-- A sample coded and decoded in A-law keeps its sign, and lies within half a step (R100, R101). -/
theorem a_roundtrip (x : Sample) :
    (0 ≤ x.toInt → 0 < (decodeA (encodeA x)).toInt) ∧ (x.toInt < 0 → (decodeA (encodeA x)).toInt < 0) ∧
    2 * ((2 * min (x.toInt / 2).natAbs 4095 + 1 : Nat) - ((decodeA (encodeA x)).toInt.natAbs : Int)).natAbs ≤
      if (encodeA x ^^^ 0x55).toNat / 16 % 8 = 0 then 4 else 2 * 2 ^ ((encodeA x ^^^ 0x55).toNat / 16 % 8) := by
  obtain ⟨seg, mant, r, hseg, hmant, hr, hm, hcode⟩ := encodeA_fields x
  have hmag := aMagnitude_segment seg mant
  obtain ⟨hlo, hhi⟩ := aMagnitude_mem hseg hmant
  have hfields : (encodeA x ^^^ 0x55).toNat / 16 % 8 = seg ∧ (encodeA x ^^^ 0x55).toNat % 16 = mant ∧
      (128 ≤ (encodeA x ^^^ 0x55).toNat ↔ 0 ≤ x.toInt) := by
    rw [hcode]
    split <;> omega
  obtain ⟨hs, ht, hsign⟩ := hfields
  have hx := decodeA_toInt (encodeA x)
  simp only [hs, ht, hsign] at hx
  have habs : (decodeA (encodeA x)).toInt.natAbs = (aMagnitude seg mant).natAbs := by
    rw [hx]
    split <;> omega
  rw [hs, habs]
  refine ⟨fun h => ?_, fun h => ?_, ?_⟩
  · rw [hx, if_pos h]
    omega
  · rw [hx, if_neg (by omega)]
    omega
  · by_cases h : seg = 0
    · simp only [h, if_true] at hr hm hmag ⊢
      omega
    · obtain ⟨e, rfl⟩ := Nat.exists_eq_add_of_le' (Nat.one_le_iff_ne_zero.mpr h)
      simp only [h, if_false, Nat.add_sub_cancel] at hr hm hmag ⊢
      have hpow : 2 ^ (e + 1) = 2 * 2 ^ e := Nat.pow_succ'
      omega

/-! ### Blocks of cells (R28, R89, R103) -/

/-- A sample coded and decoded. -/
def Coding.roundtrip (coding : Coding) (x : Sample) : Sample :=
  match coding with
  | .mu => decodeMu (encodeMu x)
  | .a => decodeA (encodeA x)
  | .lin16 => x

theorem encodeBlock_lin16_getElem (f : Frame) : ∀ (i : Nat) (hi : i < f.length), ∃ (h0 : 2 * i < (encodeBlock .lin16 f).length)
    (h1 : 2 * i + 1 < (encodeBlock .lin16 f).length),
    (encodeBlock .lin16 f)[2 * i] = (encodeLin f[i]).extractLsb' 0 8 ∧ (encodeBlock .lin16 f)[2 * i + 1] = (encodeLin f[i]).extractLsb' 8 8 := by
  induction f with
  | nil => exact fun i hi => absurd hi (Nat.not_lt_zero i)
  | cons x xs ih =>
    intro i hi
    have hcons : encodeBlock .lin16 (x :: xs) = (encodeLin x).extractLsb' 0 8 :: (encodeLin x).extractLsb' 8 8 :: encodeBlock .lin16 xs := rfl
    cases i with
    | zero => exact ⟨by simp [hcons], by simp [hcons], by simp [hcons], by simp [hcons]⟩
    | succ i =>
      obtain ⟨h0, h1, e0, e1⟩ := ih i (Nat.lt_of_succ_lt_succ hi)
      refine ⟨by rw [hcons]; simp only [List.length_cons]; omega, by rw [hcons]; simp only [List.length_cons]; omega, ?_, ?_⟩
      · simpa only [hcons, Nat.mul_add, Nat.mul_one, List.getElem_cons_succ] using e0
      · simpa only [hcons, Nat.mul_add, Nat.mul_one, Nat.add_right_comm _ 2 1, List.getElem_cons_succ] using e1

theorem append_extractLsb' (h : Half) : h.extractLsb' 8 8 ++ h.extractLsb' 0 8 = h := by
  refine BitVec.eq_of_getLsbD_eq fun i hi => ?_
  rw [BitVec.getLsbD_append, BitVec.getLsbD_extractLsb', BitVec.getLsbD_extractLsb']
  by_cases h8 : i < 8
  · simp [h8]
  · simp [h8, show i - 8 < 8 by omega, show 8 + (i - 8) = i by omega]

/-- A byte of a block just coded. -/
theorem State.cellByte_putBlock {s : State} (hm : s.mem.wf = true) (n : CellNo) {coding : Coding} {block : Nat} {f : Frame}
    (hb : block < coding.capacity) {j : Nat} (hj : j < (encodeBlock coding f).length) (hsize : (encodeBlock coding f).length ≤ coding.blockSize) :
    (s.putBlock n coding block f).cellByte n (blockOffset coding block + j) = (encodeBlock coding f)[j] := by
  have hfits := coding.block_fits hb
  have hn := n.isLt
  have haddr : cellAddr n (blockOffset coding block + j) = cellAddr n (blockOffset coding block) + j := by unfold cellAddr; omega
  show (s.mem.writeList _ _).read _ = _
  rw [haddr]
  exact Memory.read_writeList_inside _ _ _ _ hm hj (by unfold cellAddr; omega)

/-- A sample of a block just coded. -/
theorem State.decodeSample_putBlock {s : State} (hm : s.mem.wf = true) (n : CellNo) {coding : Coding} {block : Nat} {f : Frame}
    (hb : block < coding.capacity) (hf : f.length = 80) {i : Nat} (hi : i < f.length) :
    (s.putBlock n coding block f).decodeSample n coding (blockOffset coding block) i = coding.roundtrip f[i] := by
  have hsize := encodeBlock_length_le coding hf.le
  cases coding with
  | mu =>
    have hj : i < (encodeBlock .mu f).length := by simpa [encodeBlock] using hi
    have hbyte := State.cellByte_putBlock hm n hb hj hsize
    simp only [State.decodeSample, hbyte, Coding.roundtrip, encodeBlock, List.getElem_map]
  | a =>
    have hj : i < (encodeBlock .a f).length := by simpa [encodeBlock] using hi
    have hbyte := State.cellByte_putBlock hm n hb hj hsize
    simp only [State.decodeSample, hbyte, Coding.roundtrip, encodeBlock, List.getElem_map]
  | lin16 =>
    obtain ⟨h0, h1, e0, e1⟩ := encodeBlock_lin16_getElem f i hi
    have hlow := State.cellByte_putBlock hm n hb h0 hsize
    have hhigh := State.cellByte_putBlock hm n hb h1 hsize
    rw [← Nat.add_assoc] at hhigh
    simp only [State.decodeSample, State.cellHalf_eq, hlow, hhigh, e0, e1, append_extractLsb', decodeLin_encodeLin, Coding.roundtrip]

/-- Settles O30: a code by its segment and mantissa, and a block by the bytes stored. -/
theorem compandingAndBlocksKeepTheSamples : Obligations.CompandingAndBlocksKeepTheSamples := by
  refine ⟨⟨fun c => ?code, by decide, by decide, by decide, by decide, by decide, by decide, fun x => ?sample⟩,
    fun s n coding block f hm hf hb => ?block⟩
  case code =>
    intro u v mu a
    have hmu := decodeMu_toInt c
    have ha := decodeA_toInt c
    exact ⟨hmu, ha, encodeMu_decodeMu, decodeMu_natAbs_le c, encodeA_decodeA c, decodeA_natAbs_mem c⟩
  case sample =>
    intro muStep aSeg aStep
    obtain ⟨hpos, hneg, hstep⟩ := mu_roundtrip x
    obtain ⟨hposA, hnegA, hstepA⟩ := a_roundtrip x
    exact ⟨fun h => ⟨hpos h, hposA h⟩, fun h => ⟨hneg h, hnegA h⟩, hstep, hstepA⟩
  case block =>
    intro t
    have hsize := encodeBlock_length_le coding hf.le
    refine ⟨?_, fun a ha => ?_, rfl⟩
    · have hdecoded : t.decodeBlock n coding block = f.map coding.roundtrip := by
        refine List.ext_getElem (by simp [State.decodeBlock, hf]) fun i hi hi' => ?_
        have hlt : i < f.length := by simpa using hi'
        simpa [State.decodeBlock] using State.decodeSample_putBlock hm n hb hf hlt
      rw [hdecoded]
      cases coding <;> rfl
    · refine Memory.read_writeList_outside _ _ _ _ hm ?_
      unfold blockOffset
      rw [Nat.mul_add] at ha
      unfold cellAddr at ha ⊢
      omega

end Sys2Proof.Machine

/-! ## Port and channel orders (R19, R23 to R27, R43, R73, R76, R110 to R113) -/

namespace Sys2Proof.Machine

/-! ### Answers and ranges -/

theorem answerChanged_eq {b : Bool} {unchanged : Prop} [Decidable unchanged] (h : b = false ↔ unchanged) :
    answerChanged b = if unchanged then .done else .adjusted := by
  cases b with
  | false => rw [if_pos (h.mp rfl)]; rfl
  | true => rw [if_neg fun e => Bool.noConfusion (h.mpr e)]; rfl

theorem filterInRange_eq (v : Nat) : filterInRange v = if 16 ≤ v then 16 else if 8 ≤ v then 8 else if 4 ≤ v then 4 else 0 := by
  unfold filterInRange
  split_ifs <;> omega

theorem breakTiming_inRange_eq (t : BreakTiming) : t.inRange = {
    pulseMin := max 10 (min 40 t.pulseMin), flashMin := max 60 (min 400 t.flashMin), hangupMin := max 300 (min 2000 t.hangupMin),
    digitGap := max 100 (min 800 t.digitGap) } := by
  unfold BreakTiming.inRange
  simp only [clampNat_eq_max_min (by decide : 10 ≤ 40), clampNat_eq_max_min (by decide : 60 ≤ 400),
    clampNat_eq_max_min (by decide : 300 ≤ 2000), clampNat_eq_max_min (by decide : 100 ≤ 800)]

theorem inAnnex_eq_false (count off len : Nat) : inAnnex count off len = false ↔ off < 32 + 16 * count ∨ 512 < off + len := by
  simp [inAnnex]
  omega

theorem inAnnex_eq_true (count off len : Nat) : inAnnex count off len = true ↔ 32 + 16 * count ≤ off ∧ off + len ≤ 512 := by
  simp [inAnnex]

theorem orderSetPolarity_of_up {s : State} {p : LineNo} {value : Byte} (hv : ¬ (value ≠ 0 ∧ value ≠ 1)) (h : (s.port.get p).state ≠ .down) :
    s.orderSetPolarity p value =
      (s.setPort p { s.port.get p with polarity := if value = 0 then .forward else .reversed }, .done) := by
  unfold State.orderSetPolarity
  rw [if_neg hv]
  exact if_neg h

/-- Settles O32: each order by its own tests. -/
theorem portOrdersFollowTheirRules : Obligations.PortOrdersFollowTheirRules := by
  intro s p r
  refine ⟨fun h => if_pos h, fun h => if_neg h, fun h => ?downFromRest, fun h => ?downFromOffhook, fun value h0 h1 => if_pos ⟨h0, h1⟩,
    fun value hv hdown => ?polarityDown, fun hup => ⟨?forward, ?reversed⟩, fun filter t => ?timing⟩
  case downFromRest =>
    unfold State.orderPortDown
    rcases h with h | h
    · have hstate : (s.port.get p).state = .down := h
      rw [hstate]
    · have hstate : (s.port.get p).state = .idle := h
      rw [hstate]
  case downFromOffhook =>
    have hstate : (s.port.get p).state = .offhook := h
    unfold State.orderPortDown
    rw [hstate]
    rfl
  case polarityDown =>
    have hvalid : ¬ (value ≠ 0 ∧ value ≠ 1) := fun ⟨h0, h1⟩ => hv.elim h0 h1
    exact (if_neg hvalid).trans (if_pos hdown)
  case forward => exact orderSetPolarity_of_up (by decide) hup
  case reversed => exact orderSetPolarity_of_up (by decide) hup
  case timing =>
    intro f u
    have hu : t.inRange = u := breakTiming_inRange_eq t
    have hf : filterInRange filter = f := filterInRange_eq filter
    have hpulse : u.pulseMin < u.flashMin := by
      show max 10 (min 40 _) < max 60 (min 400 _)
      omega
    unfold State.orderSetHookTiming
    dsimp only
    rw [hu, hf, answerChanged_eq (unchanged := f = filter ∧ u = t) (by simp)]
    exact ⟨fun h => if_neg fun hboth => absurd hboth.2 h.not_gt, fun h => if_pos ⟨hpulse, h⟩⟩

/-! ### CHANNEL_OPEN (R23 to R26) -/

theorem codingOf_eq_none (b : Byte) : codingOf b = none ↔ b.toNat = 0 ∨ 3 < b.toNat := by
  unfold codingOf
  have h : ∀ k : Nat, k < 256 → (b = BitVec.ofNat 8 k ↔ b.toNat = k) := fun k hk =>
    ⟨fun e => by rw [e, BitVec.toNat_ofNat]; omega, fun e => by rw [← e, BitVec.ofNat_toNat, BitVec.setWidth_eq]⟩
  have h1 := h 1 (by decide)
  have h2 := h 2 (by decide)
  have h3 := h 3 (by decide)
  split_ifs with e1 e2 e3
  · have := h1.mp e1
    exact iff_of_false nofun (by omega)
  · have := h2.mp e2
    exact iff_of_false nofun (by omega)
  · have := h3.mp e3
    exact iff_of_false nofun (by omega)
  · have n1 : b.toNat ≠ 1 := fun e => e1 (h1.mpr e)
    have n2 : b.toNat ≠ 2 := fun e => e2 (h2.mpr e)
    have n3 : b.toNat ≠ 3 := fun e => e3 (h3.mpr e)
    exact iff_of_true rfl (by omega)

theorem openParams_inRange_eq (r : OpenParams) : r.inRange = { r with
    packing := max 1 (min r.coding.capacity r.packing)
    redundancy := min (min 3 r.redundancy) (r.coding.capacity - max 1 (min r.coding.capacity r.packing))
    minFrames := max 1 (min 30 r.minFrames)
    maxFrames := max (max 1 (min 30 r.minFrames)) (min 30 r.maxFrames)
    baseFrames := min 10 r.baseFrames
    steadyMargin := min 10 r.steadyMargin
    steadyTrigger := max 5 (min 50 r.steadyTrigger)
    vadThreshold := min 8191 r.vadThreshold
    hangover := min 50 r.hangover
    playoutGain := min 32 r.playoutGain
    captureGain := min 32 r.captureGain } := by
  have hcap : 1 ≤ r.coding.capacity := by cases r.coding <;> decide
  have hzero : ∀ k v : Nat, clampNat v 0 k = min k v := fun k v => (clampNat_eq_max_min (Nat.zero_le k)).trans (Nat.zero_max _)
  have hmin : clampNat r.minFrames 1 30 = max 1 (min 30 r.minFrames) := clampNat_eq_max_min (by decide)
  have hmax : clampNat r.maxFrames (max 1 (min 30 r.minFrames)) 30 = max (max 1 (min 30 r.minFrames)) (min 30 r.maxFrames) :=
    clampNat_eq_max_min (by omega)
  have htrigger : clampNat r.steadyTrigger 5 50 = max 5 (min 50 r.steadyTrigger) := clampNat_eq_max_min (by decide)
  unfold OpenParams.inRange
  simp only [clampNat_eq_max_min hcap, hzero, hmin, hmax, htrigger]

/-- Settles O34: the tests in their order, and the channel opened with its block's parameters in range. -/
theorem channelOpenStoresItsParameters : Obligations.ChannelOpenStoresItsParameters := by
  intro s ch n count off byte flags default
  refine ⟨⟨rfl, rfl, rfl⟩, fun h => if_pos h, fun hclosed hbad => ?refused, fun coding hclosed hlo hhi hcode => ?opened⟩
  case refused =>
    have hnot : ¬ (s.chan.get ch).state ≠ .closed := fun h => h hclosed
    unfold State.orderChannelOpen
    rw [if_neg hnot]
    by_cases hannex : inAnnex count off 20 = false
    · rw [if_pos hannex]
    · have hcoding : codingOf (s.openBlock n off).coding = none := by
        rw [inAnnex_eq_false] at hannex
        exact (codingOf_eq_none _).mpr (hbad.elim (fun h => absurd (.inl h) hannex) fun h => h.elim (fun h => absurd (.inr h) hannex) id)
      rw [if_neg hannex]
      dsimp only
      rw [hcoding]
  case opened =>
    intro raw packing minFrames q
    have hnot : ¬ (s.chan.get ch).state ≠ .closed := fun h => h hclosed
    have hannex : ¬ inAnnex count off 20 = false := by
      rw [inAnnex_eq_false]
      omega
    have hcoding : codingOf (s.openBlock n off).coding = some coding := (congrArg codingOf hcode).trans (codingOf_code coding)
    have hraw : (s.openBlock n off).raw coding = raw := rfl
    have hq : raw.inRange = q := openParams_inRange_eq raw
    have hle : q.minFrames ≤ q.maxFrames := Nat.le_max_left _ _
    unfold State.orderChannelOpen
    rw [if_neg hnot, if_neg hannex]
    dsimp only
    rw [hcoding]
    dsimp only
    rw [hraw, hq, answerChanged_eq (unchanged := q = raw) (by simp)]
    unfold State.openChannel Channel.opened
    rw [clampNat_eq_max_min hle]
    rfl

/-! ### CHANNEL_CLOSE, SNAPSHOT and SET_RESERVE (R27, R43, R19) -/

theorem State.flushed_eq (s : State) (ch : LineNo) :
    s.flushed ch = (s.dropRefs (s.chan.get ch).list).setChan ch { s.chan.get ch with list := [] } := by
  unfold State.flushed
  rw [State.dropRefs_setChan]

theorem Channel.snapshot_eq (c : Channel) : c.snapshot =
    (List.range 12).flatMap (fun k => bytes16 (c.counters.getD k 0)) ++ bytes16 (c.rollover.setWidth 16) ++
      bytes16 (BitVec.ofNat 16 c.j16) ++ [BitVec.ofNat 8 c.target, BitVec.ofNat 8 (c.steady.getD 0), BitVec.ofNat 8 c.list.length,
        match c.state with
          | .closed => 0
          | .waiting => 1
          | .flowing => 2
          | .gap => 3,
        match c.mode with
          | .speech => 0
          | .steady => 1] ++ List.replicate 31 (0 : Byte) := by
  unfold Channel.snapshot
  cases c.state <;> cases c.mode <;> rfl

/-- Settles O35: the close by its flush and the capture side's cell, the snapshot by its place, and the reserve. -/
theorem closeSnapshotAndReserveOrders : Obligations.CloseSnapshotAndReserveOrders := by
  refine ⟨fun s ch => ⟨fun h => if_pos h, fun h => (if_neg h).trans ?close⟩,
    fun s ch n count off clear => ⟨fun h => if_pos ((inAnnex_eq_false _ _ _).mpr h), fun hlo hhi => ?snapshot⟩,
    fun s k => ⟨fun h => ?reserve, fun h => ?reserveCut⟩⟩
  case close =>
    refine congrArg (·, Answer.done) ?_
    show s.closeChannel ch = _
    generalize hu : List.foldl (fun (v : State) (e : Entry) => v.dropRef e.cell) s (s.chan.get ch).list = u
    have hdropped : s.dropRefs (s.chan.get ch).list = u := hu
    have hchan : u.chan = s.chan := by rw [← hdropped]; simp
    have hcap : u.cap = s.cap := by rw [← hdropped]; simp
    rw [State.closeChannel_eq, State.flushed_eq, hdropped]
    have hside : ((u.setChan ch { s.chan.get ch with list := [] }).cap.get ch) = s.cap.get ch := congrArg (Four.get · ch) hcap
    cases ha : (s.cap.get ch).assembly with
    | none =>
      rw [State.closeCapture_none ((congrArg Capture.assembly hside).trans ha), hside]
      simp [State.setChan, State.setCap]
    | some n =>
      rw [State.closeCapture_some ((congrArg Capture.assembly hside).trans ha), hside]
      simp [State.setChan, State.setCap, State.handOver, stampReturned]
  case snapshot =>
    have hannex : ¬ inAnnex count off 64 = false := by
      rw [inAnnex_eq_false]
      omega
    unfold State.orderSnapshot
    rw [if_neg hannex]
    dsimp only
    rw [Channel.snapshot_eq]
    rfl
  case reserve =>
    unfold State.orderSetReserve
    rw [Nat.min_eq_left h, answerChanged_eq (unchanged := k ≤ 4) (by simp), if_pos h]
  case reserveCut =>
    unfold State.orderSetReserve
    rw [Nat.min_eq_right h.le, answerChanged_eq (unchanged := k ≤ 4) (by simp), if_neg (by omega)]

/-! ### CHANNEL_STEADY and CHANNEL_SPEECH (R72 to R77) -/

/-- The steady frames that an order asks for (R71, R73). -/
def wantedFrames (target margin : Nat) : Option Nat → Nat
  | none => min 30 (target + margin)
  | some v => if v < target then target else min 30 v

/-- Whether an explicit count is brought into range. -/
def wantedChanged (target : Nat) : Option Nat → Bool
  | none => false
  | some v => decide (v < target ∨ 30 < v)

theorem steadyFramesOf_eq {target : Nat} (h : target ≤ 30) (margin : Nat) (explicit : Option Nat) :
    steadyFramesOf target margin explicit = (wantedFrames target margin explicit, wantedChanged target explicit) := by
  cases explicit with
  | none => rfl
  | some v =>
    have hclamp : clampNat v target 30 = wantedFrames target margin (some v) := by
      show clampNat v target 30 = if v < target then target else min 30 v
      unfold clampNat
      split_ifs <;> omega
    rw [steadyFramesOf_some hclamp]
    refine Prod.ext rfl ?_
    rw [Bool.eq_iff_iff]
    show (v != if v < target then target else min 30 v) = true ↔ decide (v < target ∨ 30 < v) = true
    simp only [bne_iff_ne, decide_eq_true_eq]
    split_ifs <;> omega

theorem Channel.anchored_iff (c : Channel) : c.anchored = true ↔ c.state = .flowing ∨ c.state = .gap := by simp [Channel.anchored]

/-- Settles O36: entry into STEADY, its renewal and the return, by the channel's mode and the count wanted. -/
theorem steadyAndSpeechOrders : Obligations.SteadyAndSpeechOrders := by
  intro s ch explicit c anchored wanted changed present
  have hwanted : c.target ≤ 30 → steadyFramesOf c.target c.params.steadyMargin explicit = (wanted, changed) := by
    intro ht
    rw [steadyFramesOf_eq ht]
    unfold wanted changed
    cases explicit <;> rfl
  have hsteady : ∀ m, c.state ≠ .closed → c.mode = m → s.orderChannelSteady ch explicit =
      ((match m with | .speech => s.enterSteady ch explicit causeOrder | .steady => s.reapplySteady ch explicit).1,
        answerChanged (match m with | .speech => s.enterSteady ch explicit causeOrder | .steady => s.reapplySteady ch explicit).2) := by
    rintro m hopen rfl
    exact if_neg hopen
  refine ⟨fun h => ⟨if_pos h, if_pos h⟩, fun hopen ht hm => ⟨?stays, ?enters⟩, fun hopen ht hm => ⟨fun h => ?raised, fun h => ?same, fun h => ?lower,
    ?returns⟩⟩
  case stays =>
    have hmode : (s.chan.get ch).mode = .speech := hm
    unfold State.orderChannelSpeech
    dsimp only
    rw [if_neg hopen, hmode]
  case enters =>
    rw [hsteady _ hopen hm]
    dsimp only
    unfold State.enterSteady
    dsimp only
    rw [hwanted ht]
    have hadded : (if (s.chan.get ch).anchored then wanted - (s.chan.get ch).target else 0) = if anchored then wanted - c.target else 0 :=
      if_congr (Channel.anchored_iff c) rfl rfl
    rw [hadded]
    rfl
  case raised =>
    rw [hsteady _ hopen hm]
    dsimp only
    unfold State.reapplySteady
    dsimp only
    rw [hwanted ht]
    have hhold : (if (s.chan.get ch).anchored then (s.chan.get ch).hold + (wanted - (s.chan.get ch).steady.getD 0) else (s.chan.get ch).hold) =
        c.hold + if anchored then wanted - present else 0 := by
      rw [if_congr (Channel.anchored_iff c) rfl rfl]
      split <;> rfl
    rw [if_pos h, hhold]
    rfl
  case same =>
    rw [hsteady _ hopen hm]
    dsimp only
    unfold State.reapplySteady
    dsimp only
    rw [hwanted ht, if_neg h.not_lt, if_neg h.symm.not_lt]
    rfl
  case lower =>
    rw [hsteady _ hopen hm]
    dsimp only
    unfold State.reapplySteady
    dsimp only
    rw [hwanted ht, if_neg h.not_gt, if_pos h]
    rfl
  case returns =>
    have hmode : (s.chan.get ch).mode = .steady := hm
    unfold State.orderChannelSpeech
    dsimp only
    rw [if_neg hopen, hmode]
    dsimp only
    unfold State.returnToSpeech State.giveLineMark
    dsimp only
    rw [State.giveMark_chan, ← State.giveMark_setChan]
    rfl

end Sys2Proof.Machine

/-! ## Scans and port timers (R115 to R125) -/

namespace Sys2Proof.Machine

section Scan

variable {s : State} {p : LineNo}

theorem exec_lineScan_of_canTake (hook trip : Bool) (h : s.canTake (.scan p) = true) :
    exec (.lineScan p hook trip) s = .next ((s.undue (.scan p)).scanStep p hook trip) :=
  congrArg Host.Outcome.next (s.takeEvent_taken (.scan p) _ h)

theorem State.setPort_port_get (s : State) (p : LineNo) (r : Port) : (s.setPort p r).port.get p = r := by simp

theorem State.setPort_setPort (s : State) (p : LineNo) (r r' : Port) : (s.setPort p r).setPort p r' = s.setPort p r' := by simp [State.setPort]

/-- A port off-hook is what it was but for its state, its level and its counts, whatever the filter has done to it. -/
theorem Port.toOffhook_filterHook (r : Port) (raw : Bool) : (r.filterHook raw).toOffhook = r.toOffhook := by
  rw [Port.filterHook_eq]
  rfl

theorem State.scanStep_idle (hook trip : Bool) (h : (s.port.get p).state = .idle) :
    s.scanStep p hook trip =
      if ((s.port.get p).filterHook hook).filtered then (s.setPort p ((s.port.get p).filterHook hook)).seize p
      else s.setPort p ((s.port.get p).filterHook hook) := by
  unfold State.scanStep
  simp only [h, State.setPort_port_get]

theorem State.scanStep_offhook (hook trip : Bool) (h : (s.port.get p).state = .offhook) :
    s.scanStep p hook trip = (s.setPort p ((s.port.get p).filterHook hook)).offhookScan p (s.port.get p).filtered := by
  unfold State.scanStep
  simp only [h]

/-- Settles O39: a scan by the port's state, and the seizure when the filtered level is off-hook. -/
theorem scanSeizesAnIdlePort : Obligations.ScanSeizesAnIdlePort := by
  intro p hook trip s ht r u f
  rw [exec_lineScan_of_canTake hook trip ht]
  have hf : r.filterHook hook = f := rfl
  refine ⟨fun h => ?down, fun h hlevel => ?stays, fun h hlevel => ?seized⟩
  case down =>
    have hstate : ((s.undue (.scan p)).port.get p).state = .down := h
    unfold State.scanStep
    simp only [hstate]
    rfl
  case stays =>
    have hnot : ¬ (((s.undue (.scan p)).port.get p).filterHook hook).filtered = true := by
      show ¬ f.filtered = true
      rw [hlevel]
      nofun
    rw [State.scanStep_idle (s := s.undue (.scan p)) hook trip h, if_neg hnot]
    rfl
  case seized =>
    have hup : (((s.undue (.scan p)).port.get p).filterHook hook).filtered = true := hlevel
    rw [State.scanStep_idle (s := s.undue (.scan p)) hook trip h, if_pos hup]
    unfold State.seize
    rw [State.setPort_port_get, State.setPort_setPort, Port.toOffhook_filterHook]
    rfl

/-! ### Breaks and makes (R120, R122, R123) -/

/-- A scan that leaves the filtered level does no more than filter. -/
theorem State.offhookScan_same (s : State) (p : LineNo) {was : Bool} (h : (s.port.get p).filtered = was) : s.offhookScan p was = s := by
  have hbreak : ¬ (was = true ∧ (s.port.get p).filtered = false) := by
    rw [h]
    rintro ⟨ht, hf⟩
    exact Bool.noConfusion (ht.symm.trans hf)
  have hmake : ¬ (was = false ∧ (s.port.get p).filtered = true) := by
    rw [h]
    rintro ⟨hf, ht⟩
    exact Bool.noConfusion (hf.symm.trans ht)
  exact (if_neg hbreak).trans (if_neg hmake)

theorem State.offhookScan_break (s : State) (p : LineNo) (h : (s.port.get p).filtered = false) : s.offhookScan p true = s.startBreak p := by
  unfold State.offhookScan
  simp only [h]
  rfl

theorem State.offhookScan_make (s : State) (p : LineNo) {b : Nat} (h : (s.port.get p).filtered = true) (hb : (s.port.get p).breakCount = some b) :
    s.offhookScan p false = s.makeBreak p b := by
  unfold State.offhookScan
  simp only [h, hb]
  rfl

/-- A digit reported by its pulse count: none at 0 (R123). -/
theorem State.reportDigit_none (s : State) (p : LineNo) (h : (s.port.get p).pulses = 0) :
    s.reportDigit p = s.setPort p { s.port.get p with pulses := 0, gapCount := none } := if_pos h

theorem State.reportDigit_digit (s : State) (p : LineNo) (h1 : 1 ≤ (s.port.get p).pulses) (h9 : (s.port.get p).pulses ≤ 9) :
    s.reportDigit p = (s.setPort p { s.port.get p with pulses := 0, gapCount := none }).giveLineMark .digitPulse p
      (BitVec.ofNat 16 (s.port.get p).pulses) (BitVec.ofNat 32 (s.port.get p).pulses) := by
  have h0 : ¬ (s.port.get p).pulses = 0 := by omega
  exact (if_neg h0).trans (if_pos h9)

theorem State.reportDigit_ten (s : State) (p : LineNo) (h : (s.port.get p).pulses = 10) :
    s.reportDigit p = (s.setPort p { s.port.get p with pulses := 0, gapCount := none }).giveLineMark .digitPulse p 0 10 := by
  have h0 : ¬ (s.port.get p).pulses = 0 := by omega
  have h9 : ¬ (s.port.get p).pulses ≤ 9 := by omega
  exact (if_neg h0).trans ((if_neg h9).trans (if_pos h))

theorem State.reportDigit_fault (s : State) (p : LineNo) (h : 11 ≤ (s.port.get p).pulses) :
    s.reportDigit p = (s.setPort p { s.port.get p with pulses := 0, gapCount := none }).giveLineMark .dialFault p
      (BitVec.ofNat 16 (s.port.get p).pulses) 0 := by
  have h0 : ¬ (s.port.get p).pulses = 0 := by omega
  have h9 : ¬ (s.port.get p).pulses ≤ 9 := by omega
  have h10 : ¬ (s.port.get p).pulses = 10 := by omega
  exact (if_neg h0).trans ((if_neg h9).trans (if_neg h10))

theorem Port.filterHook_same {r : Port} {raw : Bool} (h : raw = r.filtered) : r.filterHook raw = { r with differing := 0 } := if_pos h

theorem Port.filterHook_flips {r : Port} {raw : Bool} (h : raw ≠ r.filtered) (hn : r.filter ≤ r.differing + 1) :
    r.filterHook raw = { r with filtered := raw, differing := 0 } := (if_neg h).trans (if_pos hn)

theorem Port.filterHook_counts {r : Port} {raw : Bool} (h : raw ≠ r.filtered) (hn : ¬ r.filter ≤ r.differing + 1) :
    r.filterHook raw = { r with differing := r.differing + 1 } := (if_neg h).trans (if_neg hn)

/-- A make by the length of its break: a glitch, a dial pulse or a flash (R122). -/
theorem State.makeBreak_glitch (s : State) (p : LineNo) {b : Nat} (h : b < (s.port.get p).timing.pulseMin) :
    s.makeBreak p b = if 0 < (s.port.get p).pulses then
        (s.setPort p { s.port.get p with breakCount := none, gapCount := some 0 }).undue (.timer p)
      else s.setPort p { s.port.get p with breakCount := none } := if_pos h

theorem State.makeBreak_pulse (s : State) (p : LineNo) {b : Nat} (h : (s.port.get p).timing.pulseMin ≤ b)
    (hf : b < (s.port.get p).timing.flashMin) :
    s.makeBreak p b = (s.setPort p { s.port.get p with
      breakCount := none, pulses := min 15 ((s.port.get p).pulses + 1), gapCount := some 0 }).undue (.timer p) :=
  (if_neg h.not_gt).trans (if_pos hf)

theorem State.makeBreak_flash (s : State) (p : LineNo) {b : Nat} (h : (s.port.get p).timing.pulseMin ≤ b)
    (hf : (s.port.get p).timing.flashMin ≤ b) :
    s.makeBreak p b =
      ((s.setPort p { s.port.get p with breakCount := none }).reportDigit p).giveLineMark .flash p (BitVec.ofNat 16 b) 0 :=
  (if_neg h.not_gt).trans (if_neg hf.not_gt)

end Scan

/-- Settles O40: the filter says whether the level changes; a change to on-hook starts a break, one to off-hook makes. -/
theorem offhookScanBreaksAndMakes : Obligations.OffhookScanBreaksAndMakes := by
  intro p hook trip s ht hstate r u flips changed scan mark
  have hscan : scan = .next ((u.setPort p (r.filterHook hook)).offhookScan p r.filtered) :=
    (exec_lineScan_of_canTake hook trip ht).trans
      (congrArg Host.Outcome.next (State.scanStep_offhook (s := s.undue (.scan p)) hook trip hstate))
  rw [hscan]
  refine ⟨fun h => ?same, fun h hn => ?counts, fun h hh => ?breaks, fun b h hh hb => ?makes⟩
  case same => rw [Port.filterHook_same h, State.offhookScan_same _ _ (by rw [State.setPort_port_get])]
  case counts =>
    rw [Port.filterHook_counts h fun hle => hn ⟨h, hle⟩, State.offhookScan_same _ _ (by rw [State.setPort_port_get])]
  case breaks =>
    obtain ⟨hne, hle⟩ := h
    have hwas : r.filtered = true := by
      rw [hh] at hne
      exact Bool.eq_true_of_not_eq_false (Ne.symm hne)
    rw [Port.filterHook_flips hne hle, hwas, State.offhookScan_break _ _ (by rw [State.setPort_port_get]; exact hh)]
    unfold State.startBreak
    dsimp only
    rw [State.setPort_port_get, State.setPort_setPort]
  case makes =>
    obtain ⟨hne, hle⟩ := h
    have hwas : r.filtered = false := by
      rw [hh] at hne
      exact Bool.eq_false_of_not_eq_true (Ne.symm hne)
    have hmake : (u.setPort p (r.filterHook hook)).offhookScan p r.filtered = (u.setPort p changed).makeBreak p b := by
      rw [Port.filterHook_flips hne hle, hwas]
      exact State.offhookScan_make _ _ (by rw [State.setPort_port_get]; exact hh) (by rw [State.setPort_port_get]; exact hb)
    rw [hmake]
    have hport : (u.setPort p changed).port.get p = changed := State.setPort_port_get _ _ _
    refine ⟨fun hg hp => ?glitch, fun hg hp => ?glitchDigit, fun hg hf => ?pulse, fun hg hf => ?flash⟩
    case glitch =>
      rw [State.makeBreak_glitch _ _ (by rw [hport]; exact hg), hport, if_neg hp.not_gt, State.setPort_setPort]
    case glitchDigit =>
      rw [State.makeBreak_glitch _ _ (by rw [hport]; exact hg), hport, if_pos hp, State.setPort_setPort]
    case pulse => rw [State.makeBreak_pulse _ _ (by rw [hport]; exact hg) (by rw [hport]; exact hf), hport, State.setPort_setPort]
    case flash =>
      intro v
      have hv : (u.setPort p changed).setPort p { changed with breakCount := none } = u.setPort p { changed with breakCount := none } :=
        State.setPort_setPort _ _ _ _
      have hquiet : ∀ w : State, w = u.setPort p { changed with breakCount := none } →
          w.setPort p { w.port.get p with pulses := 0, gapCount := none } = v := by
        rintro w rfl
        rw [State.setPort_port_get, State.setPort_setPort]
      have hpulses : ((u.setPort p { changed with breakCount := none }).port.get p).pulses = r.pulses := by rw [State.setPort_port_get]
      have htime : ∀ m, (v.giveMark m).now = s.now := fun m => State.giveMark_now v m
      rw [State.makeBreak_flash _ _ (by rw [hport]; exact hg) (by rw [hport]; exact hf), hport, hv]
      refine ⟨fun hp => ?_, fun h1 h9 => ?_, fun h10 => ?_, fun h11 => ?_⟩
      · rw [State.reportDigit_none _ _ (hpulses.trans hp), hquiet _ rfl]
        rfl
      · rw [State.reportDigit_digit _ _ (h1.trans_eq hpulses.symm) (hpulses.trans_le h9), hquiet _ rfl, hpulses]
        unfold State.giveLineMark
        rw [htime]
        rfl
      · rw [State.reportDigit_ten _ _ (hpulses.trans h10), hquiet _ rfl]
        unfold State.giveLineMark
        rw [htime]
        rfl
      · rw [State.reportDigit_fault _ _ (h11.trans_eq hpulses.symm), hquiet _ rfl, hpulses]
        unfold State.giveLineMark
        rw [htime]
        rfl

/-! ### The port timer (R117, R121, R123) -/

section Timer

variable {s : State} {p : LineNo}

theorem exec_portTimerExpiry_of_canTake (h : s.canTake (.timer p) = true) :
    exec (.portTimerExpiry p) s = .next ((s.undue (.timer p)).timerStep p) := congrArg Host.Outcome.next (s.takeEvent_taken (.timer p) _ h)

theorem exec_cleared (s : State) (p : LineNo) :
    exec (.cleared p) s = if (s.port.get p).clearsNext then exec (.portTimerExpiry p) s else .next s := by
  show Host.Outcome.next _ = _
  split <;> rfl

theorem exec_digitGapExpiry (s : State) (p : LineNo) :
    exec (.digitGapExpiry p) s = if (s.port.get p).gapEndsNext then exec (.portTimerExpiry p) s else .next s := by
  show Host.Outcome.next _ = _
  split <;> rfl

theorem State.expireBreak_none (h : (s.port.get p).breakCount = none) : s.expireBreak p = s := by
  unfold State.expireBreak
  simp only [h]

theorem State.expireBreak_some {b : Nat} (h : (s.port.get p).breakCount = some b) :
    s.expireBreak p = if (s.port.get p).timing.hangupMin ≤ b + 1 then s.clearLine p
      else s.setPort p { s.port.get p with breakCount := some (b + 1) } := by
  unfold State.expireBreak
  simp only [h]

theorem State.expireGap_none (h : (s.port.get p).gapCount = none) : s.expireGap p = s := by
  unfold State.expireGap
  simp only [h]

theorem State.expireGap_some {g : Nat} (h : (s.port.get p).gapCount = some g) :
    s.expireGap p = if (s.port.get p).timing.digitGap ≤ g + 1 then s.reportDigit p
      else s.setPort p { s.port.get p with gapCount := some (g + 1) } := by
  unfold State.expireGap
  simp only [h]

theorem Port.clearsNext_iff {r : Port} {b : Nat} (h : r.breakCount = some b) : r.clearsNext = true ↔ r.timing.hangupMin ≤ b + 1 := by
  unfold Port.clearsNext
  simp only [h, decide_eq_true_eq]

theorem Port.gapEndsNext_iff {r : Port} {g : Nat} (h : r.gapCount = some g) : r.gapEndsNext = true ↔ r.timing.digitGap ≤ g + 1 := by
  unfold Port.gapEndsNext
  simp only [h, decide_eq_true_eq]

end Timer

/-- Settles O41: the break count's part of the expiry, then the digit gap's. -/
theorem portTimerExpiryCountsAndReports : Obligations.PortTimerExpiryCountsAndReports := by
  intro p s ht r u timer mark
  have htimer : timer = .next ((u.expireBreak p).expireGap p) := exec_portTimerExpiry_of_canTake ht
  have hport : u.port.get p = r := rfl
  refine ⟨fun hb hg => ?idle, fun b hb hg hlt => ⟨?breakCounts, ?notCleared⟩, fun g hb hg hlt => ⟨?gapCounts, ?notEnded⟩,
    fun b hb hle => ⟨?clearedNow, ?cleared⟩, fun g hb hg hle => ?reported⟩
  case idle => rw [htimer, State.expireBreak_none (s := u) hb, State.expireGap_none (s := u) hg]
  case breakCounts =>
    have hnot : ¬ (u.port.get p).timing.hangupMin ≤ b + 1 := by rw [hport]; omega
    rw [htimer, State.expireBreak_some (s := u) hb, if_neg hnot, State.expireGap_none (by rw [State.setPort_port_get]; exact hg)]
    rfl
  case notCleared =>
    rw [exec_cleared, if_neg fun h => absurd ((Port.clearsNext_iff hb).mp h) hlt.not_ge]
  case gapCounts =>
    have hnot : ¬ (u.port.get p).timing.digitGap ≤ g + 1 := by rw [hport]; omega
    rw [htimer, State.expireBreak_none (s := u) hb, State.expireGap_some (s := u) hg, if_neg hnot]
    rfl
  case notEnded =>
    rw [exec_digitGapExpiry, if_neg fun h => absurd ((Port.gapEndsNext_iff hg).mp h) hlt.not_ge]
  case clearedNow => exact (exec_cleared s p).trans (if_pos ((Port.clearsNext_iff hb).mpr hle))
  case cleared =>
    have hlimit : (u.port.get p).timing.hangupMin ≤ b + 1 := hle
    have hgap : ((u.clearLine p).port.get p).gapCount = none := by simp [State.clearLine, State.giveLineMark, State.endTone]
    rw [htimer, State.expireBreak_some (s := u) hb, if_pos hlimit, State.expireGap_none hgap]
    rfl
  case reported =>
    intro v
    have hlimit : (u.port.get p).timing.digitGap ≤ g + 1 := hle
    have hreport : timer = .next (u.reportDigit p) := by
      rw [htimer, State.expireBreak_none (s := u) hb, State.expireGap_some (s := u) hg, if_pos hlimit]
    refine ⟨(exec_digitGapExpiry s p).trans (if_pos ((Port.gapEndsNext_iff hg).mpr hle)), fun h0 => ?_, fun h1 h9 => ?_, fun h10 => ?_,
      fun h11 => ?_⟩
    · rw [hreport, State.reportDigit_none u p h0]
      rfl
    · rw [hreport, State.reportDigit_digit u p h1 h9]
      rfl
    · rw [hreport, State.reportDigit_ten u p h10]
      rfl
    · rw [hreport, State.reportDigit_fault u p h11]
      rfl

end Sys2Proof.Machine

/-! ## The ring supply left, and the end of a ring order (R111, R139, R143, R145) -/

namespace Sys2Proof.Machine

/-! ### A grant released (R139) -/

/-- The grants with the one that a port holds given another holder. -/
def Arbiter.handed (a : Arbiter) (p : LineNo) (h : Option LineNo) : Arbiter :=
  if a.grantA = some p then { a with grantA := h } else { a with grantB := h }

/-- The part with the grant that a port holds released: free, or the next port's, whose burst begins (R139). -/
def State.afterRelease (s : State) (p : LineNo) : State :=
  match s.arb.waitList with
  | [] => { s with arb := s.arb.handed p none }
  | q :: qs => { (s.undue (.tick q)).setRing q (s.ring.get q).inBurst with arb := { s.arb.handed p (some q) with waitList := qs } }

theorem State.passGrant_of_waiting {s : State} (a : Bool) {q : LineNo} {qs : List LineNo} (hw : s.arb.waitList = q :: qs) :
    s.passGrant a =
      { (s.undue (.tick q)).setRing q (s.ring.get q).inBurst with arb := { s.arb.grant a (some q) with waitList := qs } } := by
  rw [State.passGrant_cons a hw]
  cases a <;> rfl

/-- A release, when the port holds a grant and does not wait. -/
theorem State.releaseGrant_eq {s : State} {p : LineNo} (hheld : s.arb.grantA = some p ∨ s.arb.grantB = some p)
    (hwait : p ∉ s.arb.waitList) : s.releaseGrant p = (s.afterRelease p).setRing p { s.ring.get p with level := false } := by
  have hpass : ∀ a : Bool, (∀ h, s.arb.grant a h = s.arb.handed p h) →
      (s.setRing p { s.ring.get p with level := false }).passGrant a = (s.afterRelease p).setRing p { s.ring.get p with level := false } := by
    intro a ha
    unfold State.afterRelease
    cases hw : s.arb.waitList with
    | nil =>
      rw [State.passGrant_nil a (show (s.setRing p _).arb.waitList = [] from hw)]
      dsimp only
      rw [← ha]
      rfl
    | cons q qs =>
      have hne : q ≠ p := fun e => hwait (hw ▸ e ▸ List.mem_cons_self)
      have hq : (s.ring.set p { s.ring.get p with level := false }).get q = s.ring.get q := Four.get_set_other _ _ hne
      have hswap : (s.ring.set p { s.ring.get p with level := false }).set q (s.ring.get q).inBurst =
          (s.ring.set q (s.ring.get q).inBurst).set p { s.ring.get p with level := false } := Four.set_comm _ _ _ hne.symm
      rw [State.passGrant_of_waiting a (show (s.setRing p _).arb.waitList = q :: qs from hw)]
      dsimp only [State.setRing, State.undue]
      rw [hq, hswap, ha]
  have hread : ∀ h, s.arb.grantA = some p → s.arb.grant true h = s.arb.handed p h := fun h hA => (if_pos hA).symm
  unfold State.releaseGrant
  dsimp only
  by_cases hA : s.arb.grantA = some p
  · exact (if_pos hA).trans (hpass true fun h => hread h hA)
  · exact (if_neg hA).trans ((if_pos (hheld.resolve_left hA)).trans (hpass false fun h => (if_neg hA).symm))

theorem State.afterRelease_fields (s : State) (p : LineNo) :
    s.afterRelease p = { s with due := (s.afterRelease p).due, ring := (s.afterRelease p).ring, arb := (s.afterRelease p).arb } := by
  unfold State.afterRelease
  split <;> rfl

/-- A release leaves the other context of the port that releases. -/
theorem State.afterRelease_ring {s : State} {p : LineNo} (hwait : p ∉ s.arb.waitList) : (s.afterRelease p).ring.get p = s.ring.get p := by
  unfold State.afterRelease
  split
  · rfl
  · next q qs hw =>
    have hne : p ≠ q := fun e => hwait (hw ▸ e ▸ List.mem_cons_self)
    exact Four.get_set_other _ _ hne

/-! ### The supply left (R143 step 1, R145) -/

/-- The part with a port out of the supply: its grant released in BURST, the port off the list in WAIT_GRANT. -/
def State.left (s : State) (p : LineNo) : State :=
  match (s.ring.get p).sub with
  | .burst => s.afterRelease p
  | .waitGrant => { s with arb := { s.arb with waitList := s.arb.waitList.filter (· ≠ p) } }
  | _ => s

theorem State.left_fields (s : State) (p : LineNo) :
    s.left p = { s with due := (s.left p).due, ring := (s.left p).ring, arb := (s.left p).arb } := by
  unfold State.left
  split
  · exact s.afterRelease_fields p
  · rfl
  · rfl

/-- Only the port's ring context, which of its end, knows whether RINGn was high. -/
theorem State.leaveSupply_eq {s : State} {p : LineNo} (h : s.linesOk) : ∃ g : Ring, s.leaveSupply p = (s.left p).setRing p g ∧
    g = { s.ring.get p with level := g.level } ∧ (s.left p).ring.get p = s.ring.get p := by
  obtain ⟨-, hserves⟩ := s.linesOk_iff.mp h
  have hself : ∀ w : State, w.ring = s.ring → w = w.setRing p (s.ring.get p) := by
    intro w hw
    have : w.ring.set p (s.ring.get p) = w.ring := hw ▸ s.ring.set_get p
    rw [State.setRing, this]
  unfold State.leaveSupply State.left
  cases hsub : (s.ring.get p).sub with
  | burst =>
    have hwait : p ∉ s.arb.waitList := fun hp => by
      have hw : (s.ring.get p).sub = .waitGrant := (hserves.wait p).mpr hp
      rw [hsub] at hw
      cases hw
    exact ⟨_, State.releaseGrant_eq ((hserves.burst p).mp hsub) hwait, rfl, State.afterRelease_ring hwait⟩
  | waitGrant =>
    have hlist : s.arb.waitList.filter (· != p) = s.arb.waitList.filter (· ≠ p) := List.filter_congr fun q _ => by rw [decide_not]; rfl
    exact ⟨s.ring.get p, (congrArg (fun l => { s with arb := { s.arb with waitList := l } }) hlist).trans (hself _ rfl), rfl, rfl⟩
  | none => exact ⟨s.ring.get p, hself s rfl, rfl, rfl⟩
  | rest => exact ⟨s.ring.get p, hself s rfl, rfl, rfl⟩
  | ident => exact ⟨s.ring.get p, hself s rfl, rfl, rfl⟩

/-- A port out of the supply holds no grant and does not wait. -/
theorem State.left_free {s : State} {p : LineNo} (h : s.linesOk) :
    (s.left p).arb.grantA ≠ some p ∧ (s.left p).arb.grantB ≠ some p ∧ p ∉ (s.left p).arb.waitList := by
  obtain ⟨g, hleave, -⟩ := State.leaveSupply_eq (p := p) h
  obtain ⟨-, hserves⟩ := State.linesOkBut_leaveSupply (p := p) h
  rw [hleave] at hserves
  have hoff : (Function.update ((s.left p).setRing p g).subs p .rest p).off := by
    rw [Function.update_self]
    exact ⟨nofun, nofun⟩
  exact hserves.off_iff.mp hoff

/-! ### Identity ended (R147, R152), and the run (R143 step 3) -/

/-- Whether an identity is in progress, so that the end of its run cuts it off. -/
def Ident.cut (i : Ident) : Prop := i.status = .pending ∨ i.status = .sending

/-- The identity record that the end of a run leaves. -/
def Ident.ended (i : Ident) (status : IdentStatus) : Ident := { i with status := status, buffer := [], hold := false }

/-- A port's ring and identity records at the end of its run. -/
def State.runEnded (s : State) (p : LineNo) (g : Ring) (status : IdentStatus) : State :=
  (s.setRing p { g with run := none, sub := .none, level := false }).setIdent p ((s.ident.get p).ended status)

/-- The mark of an identity cut off (R152). -/
def State.abortedMark (s : State) (p : LineNo) (cause : Half) : Mark :=
  { kind := .identAborted, line := BitVec.ofNat 8 p.val, detail16 := cause, time := s.now,
    detail32 := BitVec.ofNat 32
      (if (s.ident.get p).status = .sending then min (3 * (s.ident.get p).sent / 20) (480 + 10 * (s.ident.get p).buffer.length) else 0) }

theorem State.endRing_setRing (s : State) (p : LineNo) (g : Ring) :
    (s.setRing p g).endRing p = s.runEnded p g (s.ident.get p).status := by
  unfold State.endRing State.runEnded
  simp [State.setRing, Ident.ended]

theorem State.abortIdent_endRing_cut {s : State} {p : LineNo} (g : Ring) (cause : Half) (h : (s.ident.get p).cut) :
    ((s.setRing p g).abortIdent p cause).endRing p = (s.runEnded p g .none).giveMark (s.abortedMark p cause) := by
  have habort : (s.setRing p g).abortIdent p cause =
      ((s.setIdent p { s.ident.get p with status := .none, buffer := [] }).giveMark (s.abortedMark p cause)).setRing p g := by
    rw [← State.giveMark_setRing]
    exact if_pos h
  have hident : ((s.setIdent p { s.ident.get p with status := .none, buffer := [] }).giveMark (s.abortedMark p cause)).ident.get p =
      { s.ident.get p with status := .none, buffer := [] } := by simp
  rw [habort, State.endRing_setRing, hident]
  unfold State.runEnded
  rw [hident, ← State.giveMark_setRing, ← State.giveMark_setIdent]
  refine congrArg (State.giveMark · _) ?_
  simp [State.setIdent, State.setRing, Ident.ended]

theorem State.abortIdent_endRing_uncut {s : State} {p : LineNo} (g : Ring) (cause : Half) (h : ¬ (s.ident.get p).cut) :
    ((s.setRing p g).abortIdent p cause).endRing p = s.runEnded p g (s.ident.get p).status := by
  have habort : (s.setRing p g).abortIdent p cause = s.setRing p g := if_neg h
  rw [habort, State.endRing_setRing]

theorem State.dropIdent_endRing (s : State) (p : LineNo) (g : Ring) :
    ((s.setRing p g).dropIdent p).endRing p =
      s.runEnded p g (if (s.ident.get p).status = .pending ∨ (s.ident.get p).status = .sending then .none else (s.ident.get p).status) := by
  by_cases h : (s.ident.get p).status = .pending ∨ (s.ident.get p).status = .sending
  · have hdrop : (s.setRing p g).dropIdent p = (s.setIdent p { s.ident.get p with status := .none, buffer := [] }).setRing p g := if_pos h
    rw [hdrop, State.endRing_setRing, if_pos h]
    simp [State.runEnded, State.setIdent, State.setRing, Ident.ended]
  · have hdrop : (s.setRing p g).dropIdent p = s.setRing p g := if_neg h
    rw [hdrop, State.endRing_setRing, if_neg h]

/-- The supply left and the run ended, whatever comes of the identity between. -/
theorem State.runEnded_congr (s : State) (p : LineNo) {g g' : Ring} (h : g = { g' with level := g.level }) (st : IdentStatus) :
    s.runEnded p g st = s.runEnded p g' st := by
  unfold State.runEnded
  rw [h]

/-- What the end of a port's ring order leaves of the part but for its port record (R111, R143, R145). -/
def State.orderEnded (s : State) (p : LineNo) (st : IdentStatus) : State := (s.left p).runEnded p (s.ring.get p) st

section Ended

variable {s : State} {p : LineNo}

theorem State.left_ident (s : State) (p : LineNo) : (s.left p).ident = s.ident := by rw [State.left_fields]
theorem State.left_now (s : State) (p : LineNo) : (s.left p).now = s.now := by rw [State.left_fields]; rfl

theorem State.dropRing_eq (h : s.linesOk) :
    s.dropRing p = s.orderEnded p
      (if (s.ident.get p).status = .pending ∨ (s.ident.get p).status = .sending then .none else (s.ident.get p).status) := by
  obtain ⟨g, hleave, hg, -⟩ := State.leaveSupply_eq (p := p) h
  unfold State.dropRing State.orderEnded
  rw [hleave, State.dropIdent_endRing, State.left_ident, State.runEnded_congr _ _ hg]

theorem State.abort_uncut (h : s.linesOk) (cause : Half) (hcut : ¬ (s.ident.get p).cut) :
    ((s.leaveSupply p).abortIdent p cause).endRing p = s.orderEnded p (s.ident.get p).status := by
  obtain ⟨g, hleave, hg, -⟩ := State.leaveSupply_eq (p := p) h
  unfold State.orderEnded
  rw [hleave, State.abortIdent_endRing_uncut _ _ (by rw [State.left_ident]; exact hcut), State.left_ident, State.runEnded_congr _ _ hg]

theorem State.abort_cut (h : s.linesOk) (cause : Half) (hcut : (s.ident.get p).cut) :
    ((s.leaveSupply p).abortIdent p cause).endRing p = (s.orderEnded p .none).giveMark (s.abortedMark p cause) := by
  obtain ⟨g, hleave, hg, -⟩ := State.leaveSupply_eq (p := p) h
  have hmark : (s.left p).abortedMark p cause = s.abortedMark p cause := by
    unfold State.abortedMark
    rw [State.left_ident, State.left_now]
  unfold State.orderEnded
  rw [hleave, State.abortIdent_endRing_cut _ _ (by rw [State.left_ident]; exact hcut), hmark, State.runEnded_congr _ _ hg]

/-- The end of a ring order leaves no run, no place in the supply and no identity in progress. -/
theorem State.orderEnded_free (h : s.linesOk) {st : IdentStatus} (hst : st ≠ .pending ∧ st ≠ .sending) :
    ((s.orderEnded p st).ring.get p).run = none ∧ ((s.orderEnded p st).ring.get p).sub = .none ∧ p ∉ (s.orderEnded p st).arb.waitList ∧
    (s.orderEnded p st).arb.grantA ≠ some p ∧ (s.orderEnded p st).arb.grantB ≠ some p ∧
    ((s.orderEnded p st).ident.get p).status ≠ .pending ∧ ((s.orderEnded p st).ident.get p).status ≠ .sending := by
  obtain ⟨hA, hB, hwait⟩ := State.left_free (p := p) h
  exact ⟨by simp [State.orderEnded, State.runEnded], by simp [State.orderEnded, State.runEnded], hwait, hA, hB,
    by simpa [State.orderEnded, State.runEnded, Ident.ended] using hst.1, by simpa [State.orderEnded, State.runEnded, Ident.ended] using hst.2⟩

theorem State.orderEnded_port (s : State) (p : LineNo) (st : IdentStatus) : (s.orderEnded p st).port = s.port := by
  show (s.left p).port = s.port
  rw [State.left_fields]

end Ended

/-- Settles O33: the supply left and the run ended, with the identity dropped by PORT_DOWN and aborted by RING_STOP. -/
theorem ringingEndsByOrder : Obligations.RingingEndsByOrder := by
  intro s p g i cut holder freed ended
  refine ⟨fun h => if_neg h, fun hring h => ?ends⟩
  have hfreed : freed = s.left p := by
    unfold freed State.left State.afterRelease
    cases hsub : (s.ring.get p).sub <;> cases hw : s.arb.waitList <;> rfl
  have hended : ended = s.orderEnded p (if cut then .none else i.status) := by
    unfold ended
    rw [hfreed]
    unfold State.orderEnded State.runEnded
    rw [State.left_ident]
    rfl
  have hst : (if cut then .none else i.status) ≠ .pending ∧ (if cut then .none else i.status) ≠ .sending := by
    split
    · exact ⟨nofun, nofun⟩
    · next hno => exact ⟨fun e => hno (.inl e), fun e => hno (.inr e)⟩
  obtain ⟨hrun, hsub, hwait, hA, hB, hpending, hsending⟩ := State.orderEnded_free h hst
  have hport : ended.port = s.port := by rw [hended, State.orderEnded_port]
  have hstop : s.orderRingStop p = (s.stopRing p, .done) := if_pos hring
  rw [← hended] at hrun hsub hwait hA hB hpending hsending
  refine ⟨hrun, hsub, hwait, hA, hB, hpending, hsending, ?down, fun hcut => ?stop, fun hcut => ?abort⟩
  case down =>
    unfold State.orderPortDown
    rw [hring]
    dsimp only
    rw [(State.dropRing_eq h).trans hended.symm, hport]
  case stop =>
    have hsame : s.orderEnded p i.status = ended := by rw [hended, if_neg hcut]
    rw [hstop]
    unfold State.stopRing
    dsimp only
    rw [(State.abort_uncut h 1 hcut).trans hsame, hport]
  case abort =>
    have hnone : s.orderEnded p .none = ended := by rw [hended, if_pos hcut]
    rw [hstop]
    unfold State.stopRing
    dsimp only
    rw [State.abort_cut h 1 hcut, hnone, State.giveMark_port, hport, ← State.giveMark_setPort]
    rfl

/-! ### Ring trip (R141 to R143) -/

/-- A port record takes no part in the supply. -/
theorem State.left_setPort (s : State) (p q : LineNo) (r : Port) : (s.setPort q r).left p = (s.left p).setPort q r := by
  unfold State.left State.afterRelease
  rw [State.setPort_ring, State.setPort_arb]
  cases (s.ring.get p).sub <;> cases s.arb.waitList <;> rfl

theorem State.orderEnded_setPort (s : State) (p q : LineNo) (r : Port) (st : IdentStatus) :
    (s.setPort q r).orderEnded p st = (s.orderEnded p st).setPort q r := by
  unfold State.orderEnded
  rw [State.left_setPort]
  rfl

/-- A ring trip of a part in order: the order ended, the port OFFHOOK, and the marks (R143). -/
theorem State.ringTrip_uncut {s : State} {p : LineNo} (h : s.linesOk) (hcut : ¬ (s.ident.get p).cut) :
    s.ringTrip p = ((s.orderEnded p (s.ident.get p).status).setPort p (s.port.get p).toOffhook).giveLineMark .answered p
      (s.ring.get p).sub.code (BitVec.ofNat 32 (s.ring.get p).bursts) := by
  have hbursts : ((s.orderEnded p (s.ident.get p).status).ring.get p).bursts = (s.ring.get p).bursts := by
    simp [State.orderEnded, State.runEnded]
  unfold State.ringTrip
  dsimp only
  rw [State.abort_uncut h 0 hcut, State.orderEnded_port, State.setPort_ring, hbursts]

theorem State.ringTrip_cut {s : State} {p : LineNo} (h : s.linesOk) (hcut : (s.ident.get p).cut) :
    s.ringTrip p = (((s.orderEnded p .none).setPort p (s.port.get p).toOffhook).giveMark (s.abortedMark p 0)).giveLineMark .answered p
      (s.ring.get p).sub.code (BitVec.ofNat 32 (s.ring.get p).bursts) := by
  have hbursts : ((s.orderEnded p .none).ring.get p).bursts = (s.ring.get p).bursts := by simp [State.orderEnded, State.runEnded]
  unfold State.ringTrip
  dsimp only
  rw [State.abort_cut h 0 hcut, State.giveMark_port, State.orderEnded_port, State.setPort_ring, State.giveMark_ring, hbursts,
    ← State.giveMark_setPort]

theorem State.scanStep_ringing {s : State} {p : LineNo} (hook trip : Bool) (h : (s.port.get p).state = .ringing) :
    s.scanStep p hook trip = (s.setPort p ((s.port.get p).filterHook hook)).ringScan p trip := by
  unfold State.scanStep
  simp only [h]

theorem State.ringScan_burst {s : State} {p : LineNo} (trip : Bool) (h : (s.ring.get p).sub = .burst) :
    s.ringScan p trip = if trip = false then s.setRing p { s.ring.get p with trip := 0 }
      else if 6 ≤ (s.ring.get p).trip + 1 then s.ringTrip p else s.setRing p { s.ring.get p with trip := (s.ring.get p).trip + 1 } := by
  unfold State.ringScan
  simp only [h]

theorem State.ringScan_off {s : State} {p : LineNo} (trip : Bool)
    (h : (s.ring.get p).sub = .rest ∨ (s.ring.get p).sub = .waitGrant ∨ (s.ring.get p).sub = .ident) :
    s.ringScan p trip = if (s.port.get p).filtered then s.ringTrip p else s := by
  unfold State.ringScan
  rcases h with h | h | h <;> simp only [h]

/-- Settles O42: the scan by the sub-phase, and the trip by the order's end. -/
theorem ringingScanTrips : Obligations.RingingScanTrips := by
  intro p hook trip s ht hring r g u f scan tripped i cut holder freed ended code answered
  have hscan : scan = .next ((u.setPort p f).ringScan p trip) :=
    (exec_lineScan_of_canTake hook trip ht).trans
      (congrArg Host.Outcome.next (State.scanStep_ringing (s := s.undue (.scan p)) hook trip hring))
  rw [hscan]
  refine ⟨fun hb htrip => ?inactive, fun hb htrip hlt => ?counts, fun hoff hlevel => ?quiet, fun h hgo => ?trips⟩
  case inactive => exact congrArg Host.Outcome.next ((State.ringScan_burst (s := u.setPort p f) trip hb).trans (if_pos htrip))
  case counts =>
    have hnot : ¬ trip = false := by rw [htrip]; nofun
    have hfew : ¬ 6 ≤ g.trip + 1 := by omega
    exact congrArg Host.Outcome.next ((State.ringScan_burst (s := u.setPort p f) trip hb).trans ((if_neg hnot).trans (if_neg hfew)))
  case quiet =>
    have hnot : ¬ ((u.setPort p f).port.get p).filtered = true := by
      rw [State.setPort_port_get, hlevel]
      nofun
    exact congrArg Host.Outcome.next ((State.ringScan_off (s := u.setPort p f) trip hoff).trans (if_neg hnot))
  case trips =>
    have htripped : (u.setPort p f).ringScan p trip = (u.setPort p f).ringTrip p := by
      rcases hgo with ⟨hb, htrip, hge⟩ | ⟨hoff, hlevel⟩
      · have hnot : ¬ trip = false := by rw [htrip]; nofun
        have hmany : 6 ≤ g.trip + 1 := by omega
        exact (State.ringScan_burst (s := u.setPort p f) trip hb).trans ((if_neg hnot).trans (if_pos hmany))
      · have hlevel' : ((u.setPort p f).port.get p).filtered = true := by rw [State.setPort_port_get, hlevel]
        exact (State.ringScan_off (s := u.setPort p f) trip hoff).trans (if_pos hlevel')
    have hf : r.filterHook hook = f := rfl
    have hok : (u.setPort p f).linesOk := by
      rw [← hf, Port.filterHook_eq]
      exact State.linesOk_setPort_of_fields (State.linesOk_undue _ h) rfl rfl rfl
    have hfreed : freed = u.left p := by
      have hrings : u.ring = s.ring := rfl
      have harb : u.arb = s.arb := rfl
      unfold freed State.left State.afterRelease
      rw [hrings, harb]
      cases hsub : (s.ring.get p).sub <;> cases hw : s.arb.waitList <;> rfl
    have hended : ((u.setPort p f).orderEnded p (if cut then .none else i.status)).setPort p f.toOffhook = ended := by
      unfold ended
      rw [State.orderEnded_setPort, State.setPort_setPort, hfreed]
      unfold State.orderEnded State.runEnded
      rw [State.left_ident]
      rfl
    have hst : (if cut then .none else i.status) ≠ .pending ∧ (if cut then .none else i.status) ≠ .sending := by
      split
      · exact ⟨nofun, nofun⟩
      · next hno => exact ⟨fun e => hno (.inl e), fun e => hno (.inr e)⟩
    obtain ⟨hrun, hsub, hwait, hA, hB, hpending, hsending⟩ := State.orderEnded_free hok hst
    have hcode : g.sub.code = code := by
      unfold code
      cases g.sub <;> rfl
    have hport : (u.setPort p f).port.get p = f := State.setPort_port_get _ _ _
    have hnow : ended.now = s.now := by
      show freed.now = s.now
      rw [hfreed]
      exact State.left_now u p
    rw [htripped]
    refine ⟨hended ▸ hrun, hended ▸ hsub, hended ▸ hwait, hended ▸ hA, hended ▸ hB, hended ▸ hpending, hended ▸ hsending,
      fun hcut => ?_, fun hcut => ?_⟩
    · rw [if_neg hcut] at hended
      have hsame : ((u.setPort p f).orderEnded p i.status).setPort p ((u.setPort p f).port.get p).toOffhook = ended := by rw [hport, hended]
      refine congrArg Host.Outcome.next ((State.ringTrip_uncut hok hcut).trans ?_)
      rw [show ((u.setPort p f).ident.get p).status = i.status from rfl, hsame, show ((u.setPort p f).ring.get p) = g from rfl, hcode]
      unfold State.giveLineMark
      rw [hnow]
      rfl
    · rw [if_pos hcut] at hended
      have hsame : ((u.setPort p f).orderEnded p .none).setPort p ((u.setPort p f).port.get p).toOffhook = ended := by rw [hport, hended]
      refine congrArg Host.Outcome.next ((State.ringTrip_cut hok hcut).trans ?_)
      rw [hsame, show ((u.setPort p f).ring.get p) = g from rfl, hcode]
      unfold State.giveLineMark
      rw [State.giveMark_now, hnow]
      rfl

end Sys2Proof.Machine

/-! ## The cadence of a ring run (R132, R140), and grants that pass on (R138, R139) -/

namespace Sys2Proof.Machine

/-! ### The search for the next half -/

/-- What a run's halves are does not depend on where it stands. -/
theorem CadenceRun.searchFrom_congr {c d : CadenceRun} (h : ∀ pos, c.duration pos = d.duration pos) (k : Nat) :
    ∀ pos, c.searchFrom k pos = d.searchFrom k pos := by
  induction k with
  | zero => exact fun pos => rfl
  | succ k ih =>
    intro pos
    unfold CadenceRun.searchFrom
    rw [h, ih]

/-- The segment count plays no part in the next half. -/
theorem CadenceRun.nextHalf_count (c : CadenceRun) (n : Nat) : ({ c with count := n } : CadenceRun).nextHalf = c.nextHalf := by
  have hsearch := fun k pos => CadenceRun.searchFrom_congr (c := { c with count := n }) (d := c) (fun _ => rfl) k pos
  unfold CadenceRun.nextHalf
  rw [hsearch, hsearch]

/-! ### The wait list (R138) -/

/-- A port joins the wait list at the end, but ahead of the first port of a higher number with the same stamp. -/
theorem joinWait_split (stampOf : LineNo → Word) (stamp : Word) (p : LineNo) (l : List LineNo) : ∃ front back : List LineNo,
    l = front ++ back ∧ joinWait stampOf stamp p l = front ++ p :: back ∧ (∀ q ∈ front, ¬ (stampOf q = stamp ∧ p < q)) ∧
    ∀ q, back.head? = some q → stampOf q = stamp ∧ p < q := by
  induction l with
  | nil => exact ⟨[], [], rfl, rfl, fun q hq => absurd hq List.not_mem_nil, fun q hq => by cases hq⟩
  | cons x xs ih =>
    by_cases hx : stampOf x = stamp ∧ p < x
    · refine ⟨[], x :: xs, rfl, if_pos hx, fun q hq => absurd hq List.not_mem_nil, fun q hq => ?_⟩
      cases hq
      exact hx
    · obtain ⟨front, back, hl, hjoin, hfront, hback⟩ := ih
      refine ⟨x :: front, back, congrArg (x :: ·) hl, (if_neg hx).trans (congrArg (x :: ·) hjoin), fun q hq => ?_, hback⟩
      rcases List.mem_cons.mp hq with rfl | hq
      · exact hx
      · exact hfront q hq

/-! ### A ring run's halves, by its record (R132, R140) -/

section Halves

variable (s : State) (p : LineNo) (g : Ring)

theorem State.setRing_ring_get : (s.setRing p g).ring.get p = g := by simp

theorem State.setRing_setRing (g' : Ring) : (s.setRing p g).setRing p g' = s.setRing p g' := by simp [State.setRing]

theorem State.setRing_get_self : s.setRing p (s.ring.get p) = s := congrArg (fun v => { s with ring := v }) (s.ring.set_get p)

/-- A port at an on-half takes grant A when it is free. -/
theorem State.askGrant_setRing_freeA (h : s.arb.grantA = none) :
    (s.setRing p g).askGrant p = { s.setRing p g.inBurst with arb := { s.arb with grantA := some p } } := by
  rw [State.askGrant_of_freeA (s := s.setRing p g) h, State.setRing_ring_get]
  simp [State.setGrant, State.setRing]

/-- Else grant B when that is free. -/
theorem State.askGrant_setRing_freeB (hA : s.arb.grantA ≠ none) (hB : s.arb.grantB = none) :
    (s.setRing p g).askGrant p = { s.setRing p g.inBurst with arb := { s.arb with grantB := some p } } := by
  rw [State.askGrant_of_freeB (s := s.setRing p g) hA hB, State.setRing_ring_get]
  simp [State.setGrant, State.setRing]

/-- With both grants held it waits, in its place. -/
theorem State.askGrant_setRing_busy (hA : s.arb.grantA ≠ none) (hB : s.arb.grantB ≠ none) : ∃ front back : List LineNo,
    s.arb.waitList = front ++ back ∧
    (s.setRing p g).askGrant p =
      { s.setRing p (g.inWait s.clock.boundaries) with arb := { s.arb with waitList := front ++ p :: back } } ∧
    (∀ q ∈ front, ¬ ((s.ring.get q).waitStamp = s.clock.boundaries ∧ p < q)) ∧
    ∀ q, back.head? = some q → (s.ring.get q).waitStamp = s.clock.boundaries ∧ p < q := by
  obtain ⟨front, back, hl, hjoin, hfront, hback⟩ :=
    joinWait_split (fun q => (((s.setRing p g).asWaiting p).ring.get q).waitStamp) s.clock.boundaries p s.arb.waitList
  have hother : ∀ q, p < q → (((s.setRing p g).asWaiting p).ring.get q).waitStamp = (s.ring.get q).waitStamp := by
    intro q hq
    have hne : q ≠ p := fun e => absurd hq (e ▸ lt_irrefl _)
    simp [State.asWaiting, Four.get_set_other _ _ hne]
  refine ⟨front, back, hl, ?_, fun q hq h => hfront q hq ⟨(hother q h.2).trans h.1, h.2⟩, fun q hq => ?_⟩
  · rw [State.askGrant_of_busy (s := s.setRing p g) hA hB, ← hjoin]
    unfold State.waitJoined State.asWaiting
    rw [State.setRing_ring_get, State.setRing_setRing]
    rfl
  · obtain ⟨hstamp, hlt⟩ := hback q hq
    exact ⟨(hother q hlt).symm.trans hstamp, hlt⟩

theorem IdentStatus.doneCode_eq (i : IdentStatus) : i.doneCode = (match i with
    | .none => 0
    | .pending => 2
    | .sending => 2
    | .tail => 1
    | .sent => 1) := by cases i <;> rfl

/-- The part with a ONCE ring run complete (R146). -/
def State.ringCompleted (s : State) (p : LineNo) (g : Ring) : State :=
  ((s.runEnded p g (s.ident.get p).status).setPort p { s.port.get p with state := .idle }).giveLineMark .ringDone p
    (s.ident.get p).status.doneCode (BitVec.ofNat 32 g.bursts)

theorem State.ringCompleted_eq : s.ringCompleted p g =
    ((s.runEnded p g (s.ident.get p).status).setPort p { s.port.get p with state := .idle }).giveMark
      { kind := .ringDone, line := BitVec.ofNat 8 p.val, detail16 := (s.ident.get p).status.doneCode, time := s.now,
        detail32 := BitVec.ofNat 32 g.bursts } := rfl

variable {g} {c : CadenceRun}

theorem State.advanceRing_none (hrun : g.run = some c) (hnext : c.nextHalf = none) : (s.setRing p g).advanceRing p = s.ringCompleted p g := by
  have hadvance : (s.setRing p g).advanceRing p = (s.setRing p g).completeRing p := by
    unfold State.advanceRing
    simp only [State.setRing_ring_get, hrun, hnext]
  rw [hadvance]
  unfold State.completeRing
  dsimp only
  rw [State.endRing_setRing]
  simp [State.ringCompleted, State.runEnded, Ident.ended]

theorem State.advanceRing_off (hrun : g.run = some c) {pos : Nat} (hnext : c.nextHalf = some pos) (hoff : c.isOn pos = false) :
    (s.setRing p g).advanceRing p = s.setRing p { g with run := some (c.moveTo pos), sub := .rest } := by
  unfold State.advanceRing
  simp only [State.setRing_ring_get, hrun, hnext, hoff]
  exact State.setRing_setRing _ _ _ _

theorem State.advanceRing_on (hrun : g.run = some c) {pos : Nat} (hnext : c.nextHalf = some pos) (hon : c.isOn pos = true) :
    (s.setRing p g).advanceRing p = (s.setRing p { g with run := some (c.moveTo pos) }).askGrant p := by
  unfold State.advanceRing
  simp only [State.setRing_ring_get, hrun, hnext, hon, if_true]
  rw [State.setRing_setRing]

/-- The run that the identity hold begins with: the next off-half, else the position stays with nothing left to count (R150 step 1). -/
def CadenceRun.held (c : CadenceRun) : CadenceRun :=
  match c.nextHalf with
  | some pos => if c.isOn pos then { c with count := 0 } else c.moveTo pos
  | none => { c with count := 0 }

theorem State.beginIdentHold_setRing (hrun : g.run = some c) :
    (s.setRing p g).beginIdentHold p = (s.setRing p { g with run := some c.held, sub := .rest }).setIdent p
      { s.ident.get p with delay := 50, hold := true } := by
  unfold State.beginIdentHold
  dsimp only
  rw [State.setRing_ring_get, State.setRing_setRing, hrun]
  rfl

end Halves

/-! ### The tick that ends a burst (R139, R140) -/

section Burst

variable {s : State} {p : LineNo} {c : CadenceRun}

theorem exec_cadenceTick_of_canTake (h : s.canTake (.tick p) = true) :
    exec (.cadenceTick p) s = .next ((s.undue (.tick p)).tickStep p) := congrArg Host.Outcome.next (s.takeEvent_taken (.tick p) _ h)

theorem State.tickStep_of_ring (hrun : (s.ring.get p).run = some c) : s.tickStep p = s.ringTick p := by
  unfold State.tickStep
  simp only [hrun]

theorem Ring.segment_of_run {g : Ring} (hrun : g.run = some c) : g.segment = c.count := by
  unfold Ring.segment
  rw [hrun]
  rfl

theorem Ring.withCount_of_run {g : Ring} (hrun : g.run = some c) (n : Nat) : g.withCount n = { g with run := some { c with count := n } } := by
  unfold Ring.withCount
  rw [hrun]
  rfl

theorem State.ringTick_burst (hsub : (s.ring.get p).sub = .burst) (hrun : (s.ring.get p).run = some c) :
    s.ringTick p =
      if c.count ≤ 1 then (s.setRing p { s.ring.get p with run := some { c with count := c.count - 1 } }).endBurst p
      else s.setRing p { s.ring.get p with run := some { c with count := c.count - 1 } } := by
  unfold State.ringTick
  simp only [hsub, Ring.segment_of_run hrun, Ring.withCount_of_run hrun]

theorem State.afterRelease_setRing (hwait : p ∉ s.arb.waitList) (g g' : Ring) :
    ((s.setRing p g).afterRelease p).setRing p g' = (s.afterRelease p).setRing p g' := by
  unfold State.afterRelease
  rw [State.setRing_arb]
  cases hw : s.arb.waitList with
  | nil => simp [State.setRing]
  | cons q qs =>
    have hne : q ≠ p := fun e => hwait (hw ▸ e ▸ List.mem_cons_self)
    have hq : (s.setRing p g).ring.get q = s.ring.get q := Four.get_set_other _ _ hne
    dsimp only
    rw [hq]
    simp only [State.setRing, State.undue]
    rw [Four.set_comm _ _ _ hne.symm, Four.set_set]

/-- The end of a burst: the grant released, and then the identity hold or the engine's advance (R140, R150). -/
theorem State.endBurst_setRing (hheld : s.arb.grantA = some p ∨ s.arb.grantB = some p) (hwait : p ∉ s.arb.waitList) (g : Ring) :
    (s.setRing p g).endBurst p =
      if (s.ident.get p).status = .pending ∧ (s.ident.get p).hold = false then
        ((s.afterRelease p).setRing p { g with level := false }).beginIdentHold p
      else ((s.afterRelease p).setRing p { g with level := false }).advanceRing p := by
  have hrelease : (s.setRing p g).releaseGrant p = (s.afterRelease p).setRing p { g with level := false } := by
    rw [State.releaseGrant_eq (s := s.setRing p g) hheld hwait, State.setRing_ring_get, State.afterRelease_setRing hwait]
  have hident : ((s.afterRelease p).setRing p { g with level := false }).ident = s.ident := by
    rw [State.setRing_ident, State.afterRelease_fields]
  unfold State.endBurst
  dsimp only
  rw [hrelease, hident]

/-- The tick that ends a burst (R140). -/
theorem exec_cadenceTick_of_burstEnd (ht : s.canTake (.tick p) = true) (hsub : (s.ring.get p).sub = .burst)
    (hrun : (s.ring.get p).run = some c) (hcount : c.count ≤ 1) (hheld : s.arb.grantA = some p ∨ s.arb.grantB = some p)
    (hwait : p ∉ s.arb.waitList) :
    exec (.cadenceTick p) s = .next
      (if (s.ident.get p).status = .pending ∧ (s.ident.get p).hold = false then
        (((s.undue (.tick p)).afterRelease p).setRing p
          { s.ring.get p with run := some { c with count := c.count - 1 }, level := false }).beginIdentHold p
      else (((s.undue (.tick p)).afterRelease p).setRing p
          { s.ring.get p with run := some { c with count := c.count - 1 }, level := false }).advanceRing p) := by
  have hburst := State.ringTick_burst (s := s.undue (.tick p)) hsub hrun
  rw [if_pos hcount] at hburst
  rw [exec_cadenceTick_of_canTake ht, State.tickStep_of_ring (s := s.undue (.tick p)) hrun, hburst,
    State.endBurst_setRing (s := s.undue (.tick p)) hheld hwait]
  rfl

end Burst

theorem CadenceRun.moveTo_count (c : CadenceRun) (n pos : Nat) : ({ c with count := n } : CadenceRun).moveTo pos = c.moveTo pos := rfl

/-- What a part with both grants held keeps while a port begins an identity hold, goes on to its next half, or ends its run. -/
structure State.OneRingMoves (s : State) (p : LineNo) (t : State) : Prop where
  others : ∀ q, q ≠ p → t.ring.get q = s.ring.get q
  sub : (t.ring.get p).sub ≠ .burst
  grants : t.arb.grantA = s.arb.grantA ∧ t.arb.grantB = s.arb.grantB
  list : ∀ q, q ≠ p → q ∈ t.arb.waitList → q ∈ s.arb.waitList
  rest : t.chan = s.chan ∧ t.cap = s.cap ∧ t.tone = s.tone ∧ t.verdict = s.verdict ∧ t.clock = s.clock ∧ t.bus = s.bus ∧ t.pending = s.pending

theorem State.oneRingMoves_setRing (s : State) (p : LineNo) {g : Ring} (h : g.sub ≠ .burst) : s.OneRingMoves p (s.setRing p g) :=
  ⟨fun q hq => by simp [Four.get_set_other _ _ hq], by simpa using h, ⟨rfl, rfl⟩, fun _ _ hq => hq, rfl, rfl, rfl, rfl, rfl, rfl, rfl⟩

theorem State.oneRingMoves_beginIdentHold (s : State) (p : LineNo) {g : Ring} {c : CadenceRun} (hrun : g.run = some c) :
    s.OneRingMoves p ((s.setRing p g).beginIdentHold p) := by
  rw [State.beginIdentHold_setRing _ _ hrun]
  obtain ⟨hothers, hsub, hgrants, hlist, hrest⟩ := s.oneRingMoves_setRing p (g := { g with run := some c.held, sub := .rest }) nofun
  exact ⟨hothers, hsub, hgrants, hlist, hrest⟩

theorem State.oneRingMoves_advanceRing {s : State} {p : LineNo} {g : Ring} {c : CadenceRun} (hrun : g.run = some c)
    (hA : s.arb.grantA ≠ none) (hB : s.arb.grantB ≠ none) : s.OneRingMoves p ((s.setRing p g).advanceRing p) := by
  cases hnext : c.nextHalf with
  | none =>
    rw [State.advanceRing_none _ _ hrun hnext]
    refine ⟨fun q hq => ?_, ?_, ⟨?_, ?_⟩, fun q _ hq => ?_, ?_⟩
    · simp [State.ringCompleted, State.runEnded, State.giveLineMark, Four.get_set_other _ _ hq]
    · simp [State.ringCompleted, State.runEnded, State.giveLineMark]
    · simp [State.ringCompleted, State.runEnded, State.giveLineMark]
    · simp [State.ringCompleted, State.runEnded, State.giveLineMark]
    · simpa [State.ringCompleted, State.runEnded, State.giveLineMark] using hq
    · simp [State.ringCompleted, State.runEnded, State.giveLineMark]
  | some pos =>
    cases hon : c.isOn pos with
    | false =>
      rw [State.advanceRing_off _ _ hrun hnext hon]
      exact s.oneRingMoves_setRing p nofun
    | true =>
      rw [State.advanceRing_on _ _ hrun hnext hon]
      obtain ⟨front, back, hl, hask, -, -⟩ := State.askGrant_setRing_busy s p { g with run := some (c.moveTo pos) } hA hB
      obtain ⟨hothers, hsub, -, -, hrest⟩ :=
        s.oneRingMoves_setRing p (g := ({ g with run := some (c.moveTo pos) } : Ring).inWait s.clock.boundaries) nofun
      rw [hask]
      refine ⟨hothers, hsub, ⟨rfl, rfl⟩, fun q hq hmem => ?_, hrest⟩
      rw [hl]
      rcases List.mem_append.mp hmem with h | h
      · exact List.mem_append_left _ h
      · exact List.mem_append_right _ ((List.mem_cons.mp h).resolve_left hq)

/-- A release while a port waits: both grants stay held, and the head of the list is in its burst. -/
theorem State.afterRelease_waiting {s : State} {p q : LineNo} {qs : List LineNo} (hw : s.arb.waitList = q :: qs) :
    s.afterRelease p = { (s.undue (.tick q)).setRing q (s.ring.get q).inBurst with arb := { s.arb.handed p (some q) with waitList := qs } } := by
  unfold State.afterRelease
  rw [hw]

theorem Arbiter.handed_held {a : Arbiter} (p q : LineNo) (hA : a.grantA ≠ none) (hB : a.grantB ≠ none) :
    (a.handed p (some q)).grantA ≠ none ∧ (a.handed p (some q)).grantB ≠ none := by
  unfold Arbiter.handed
  split
  · exact ⟨nofun, hB⟩
  · exact ⟨hA, nofun⟩

theorem exec_grantPass (s : State) (p : LineNo) :
    exec (.grantPass p) s = .next (if s.burstEndsNext p && !s.arb.waitList.isEmpty && s.canTake (.tick p) then s.tickEvent p
      else if s.clock.running then s.passFree else s) := rfl

theorem State.burstEndsNext_iff (s : State) (p : LineNo) :
    s.burstEndsNext p = true ↔ (s.ring.get p).sub = .burst ∧ (s.ring.get p).segment ≤ 1 := by
  simp [State.burstEndsNext]

/-- On a part in order GRANT_PASS is the tick that ends a burst while a port waits, and else nothing (log 4). -/
theorem exec_grantPass_of_linesOk {s : State} (h : s.linesOk) (p : LineNo) (ht : s.canTake (.tick p) = true) (hw : s.arb.waitList ≠ []) :
    exec (.grantPass p) s = if s.burstEndsNext p then exec (.cadenceTick p) s else .next s := by
  have hsome : (!s.arb.waitList.isEmpty) = true := by simpa using hw
  rw [exec_grantPass, ht, hsome, Bool.and_true, Bool.and_true]
  split
  · rfl
  · rw [State.linesOk_passFree h, ite_self]

/-- Settles O43: the tick that ends a burst by its release and its next half, the asking port by the grants, and the toggle by the drive
count. -/
theorem grantsPassAndRingDriveToggles : Obligations.GrantsPassAndRingDriveToggles := by
  refine ⟨fun p q rest s h ht hw => ⟨fun hsub hseg => ?passes, fun hno => ?noPass⟩, fun p s c ht hor => ?burst, fun p s => ⟨fun hA => ?takesA,
    fun hA hB => ?takesB⟩, fun p s hA hB => ?waits, fun p s => ⟨fun hrun hsub hdrive => ?toggles, fun hno => ?noToggle⟩⟩
  case passes =>
    obtain ⟨hlocal, hserves⟩ := s.linesOk_iff.mp h
    obtain ⟨-, -, -, hring, hringing⟩ := hlocal p
    obtain ⟨c, hrun⟩ := Option.isSome_iff_exists.mp (hring.mpr (hringing.mp (by rw [hsub]; nofun)))
    have hcount : c.count ≤ 1 := Ring.segment_of_run hrun ▸ hseg
    have hheld := (hserves.burst p).mp hsub
    have hwait : p ∉ s.arb.waitList := fun hp => by
      have := (hserves.wait p).mpr hp
      rw [show s.subs p = .burst from hsub] at this
      cases this
    have hne : q ≠ p := fun e => hwait (hw ▸ e ▸ List.mem_cons_self)
    have hnodup := hserves.nodup
    rw [hw, List.nodup_cons] at hnodup
    have hpass : exec (.grantPass p) s = exec (.cadenceTick p) s := by
      rw [exec_grantPass_of_linesOk h p ht (by rw [hw]; nofun), if_pos ((s.burstEndsNext_iff p).mpr ⟨hsub, hseg⟩)]
    obtain ⟨hA, hB⟩ := hserves.busy (by rw [hw]; nofun)
    have hfree := State.afterRelease_waiting (s := s.undue (.tick p)) (p := p) hw
    obtain ⟨w, hwdef⟩ : ∃ w, w = (s.undue (.tick p)).afterRelease p := ⟨_, rfl⟩
    rw [← hwdef] at hfree
    obtain ⟨hA', hB'⟩ : w.arb.grantA ≠ none ∧ w.arb.grantB ≠ none := by
      rw [hfree]
      exact Arbiter.handed_held p q hA hB
    obtain ⟨t, htick, hmoves⟩ : ∃ t, exec (.cadenceTick p) s = .next t ∧ w.OneRingMoves p t := by
      refine ⟨_, exec_cadenceTick_of_burstEnd ht hsub hrun hcount hheld hwait, ?_⟩
      rw [← hwdef]
      split
      · exact w.oneRingMoves_beginIdentHold p rfl
      · exact State.oneRingMoves_advanceRing rfl hA' hB'
    obtain ⟨hothers, hnot, ⟨hgrantA, hgrantB⟩, hlist, hchan, hcap, htone, hverdict, hclock, hbus, hpending⟩ := hmoves
    have hburst : t.ring.get q = (s.ring.get q).inBurst := by
      rw [hothers q hne, hfree]
      exact Four.get_set_same _ _ _
    rw [hfree] at hgrantA hgrantB hlist hchan hcap htone hverdict hclock hbus hpending
    refine ⟨hpass, t, hpass.trans htick, ?_, ?_, ?_, ?_, ?_, ?_, fun hq => hnodup.1 (hlist q hne hq), hnot, fun hp => ?_, fun hp => ?_, hchan,
      hcap, htone, hverdict, hclock, hbus, hpending⟩
    · rw [hburst]; rfl
    · rw [hburst]; rfl
    · rw [hburst]; rfl
    · rw [hburst]; rfl
    · rw [hburst]; rfl
    · rw [hburst]; rfl
    · have hhanded : (s.undue (.tick p)).arb.handed p (some q) = { s.arb with grantA := some q } := if_pos hp
      rw [hhanded] at hgrantA hgrantB
      exact ⟨hgrantA, hgrantB⟩
    · have hnotA : ¬ (s.undue (.tick p)).arb.grantA = some p := fun hpA => hserves.one p ⟨hpA, hp⟩
      have hhanded : (s.undue (.tick p)).arb.handed p (some q) = { s.arb with grantB := some q } := if_neg hnotA
      rw [hhanded] at hgrantA hgrantB
      exact ⟨hgrantB, hgrantA⟩
  case noPass =>
    have hnot : ¬ s.burstEndsNext p = true := by
      rw [State.burstEndsNext_iff]
      rintro ⟨hsub, hseg⟩
      exact hno.elim (fun hn => hn hsub) fun hlt => absurd hseg hlt.not_ge
    rw [exec_grantPass_of_linesOk h p ht (by rw [hw]; nofun), if_neg hnot]
  case burst =>
    intro g i next holder u tick hsub hrun hcount hheld
    have hwait : p ∉ s.arb.waitList := by
      rcases hor with hw | h
      · rw [hw]
        exact List.not_mem_nil
      · intro hp
        have hgrant := ((s.linesOk_iff.mp h).2.wait p).mpr hp
        rw [show s.subs p = .burst from hsub] at hgrant
        cases hgrant
    have hu : (s.undue (.tick p)).afterRelease p = u := by
      unfold u State.afterRelease
      rw [show (s.undue (.tick p)).arb = s.arb from rfl]
      cases hw : s.arb.waitList <;> rfl
    have hident : u.ident = s.ident := by
      rw [← hu, State.afterRelease_fields]
      rfl
    obtain ⟨k, hk⟩ : ∃ k : Ring, k = { g with run := some { c with count := c.count - 1 }, level := false } := ⟨_, rfl⟩
    have hkrun : k.run = some { c with count := c.count - 1 } := by rw [hk]
    have hnext : ({ c with count := c.count - 1 } : CadenceRun).nextHalf = c.nextHalf := c.nextHalf_count _
    have htick : tick = .next (if i.status = .pending ∧ i.hold = false then (u.setRing p k).beginIdentHold p
        else (u.setRing p k).advanceRing p) := by
      have hend := exec_cadenceTick_of_burstEnd ht hsub hrun hcount hheld hwait
      rw [hu] at hend
      rw [hk]
      exact hend
    refine ⟨fun hpending hhold => ?holds, fun hno => ⟨fun pos hpos hoff => ?rests, fun pos hpos hon hw => ?again, fun pos hpos hon hw => ?queues,
      fun hnone => ?completes⟩⟩
    case holds =>
      rw [htick, if_pos ⟨hpending, hhold⟩, State.beginIdentHold_setRing _ _ hkrun, hident, hk]
      unfold CadenceRun.held
      rw [hnext]
      rfl
    all_goals
      have hadvance : tick = .next ((u.setRing p k).advanceRing p) := by
        rw [htick, if_neg]
        rintro ⟨hpending, hhold⟩
        exact hno.elim (fun h => h hpending) fun h => Bool.noConfusion (h.symm.trans hhold)
      rw [hadvance]
    case rests =>
      rw [State.advanceRing_off _ _ hkrun (hnext.trans hpos) hoff, hk]
      rfl
    case again =>
      have harb : u.arb = s.arb.handed p none := by
        rw [← hu]
        unfold State.afterRelease
        rw [show (s.undue (.tick p)).arb = s.arb from rfl, hw]
      have hfree : u.arb.grantA ≠ none → u.arb.grantB = none := by
        intro hA
        rw [harb] at hA ⊢
        unfold Arbiter.handed at hA ⊢
        split at hA
        · exact absurd rfl hA
        · next hnot => rw [if_neg hnot]
      have hburst : ({ k with run := some (({ c with count := c.count - 1 } : CadenceRun).moveTo pos) } : Ring).inBurst =
          { g with level := true, drive := 0, trip := 0, bursts := min 65535 (g.bursts + 1), run := some (next pos) } := by
        rw [hk, hsub]
        rfl
      rw [State.advanceRing_on _ _ hkrun (hnext.trans hpos) hon]
      by_cases hA : u.arb.grantA = none
      · rw [State.askGrant_setRing_freeA _ _ _ hA, if_pos hA, hburst]
      · rw [State.askGrant_setRing_freeB _ _ _ hA (hfree hA), if_neg hA, hburst]
    case queues =>
      have h := hor.resolve_left hw
      obtain ⟨q, qs, hlist⟩ := List.exists_cons_of_ne_nil hw
      have hfree : u = { (((s.undue (.tick p)).undue (.tick q)).setRing q (s.ring.get q).inBurst : State) with
          arb := { s.arb.handed p (some q) with waitList := qs } } := hu.symm.trans (State.afterRelease_waiting (s := s.undue (.tick p)) hlist)
      obtain ⟨hA, hB⟩ := (s.linesOk_iff.mp h).2.busy hw
      have hheldBoth : u.arb.grantA ≠ none ∧ u.arb.grantB ≠ none := by
        rw [hfree]
        exact Arbiter.handed_held p q hA hB
      have hstamp : ∀ r, (u.ring.get r).waitStamp = (s.ring.get r).waitStamp := by
        intro r
        rw [hfree]
        by_cases e : r = q
        · subst e
          show ((s.ring.set r (s.ring.get r).inBurst).get r).waitStamp = _
          rw [Four.get_set_same]
          rfl
        · exact congrArg Ring.waitStamp (Four.get_set_other _ _ e)
      have hclock : u.clock = s.clock := by rw [hfree]; rfl
      have htail : u.arb.waitList = s.arb.waitList.tail := by rw [hfree, hlist]; rfl
      obtain ⟨front, back, hl, hask, hfront, hback⟩ :=
        State.askGrant_setRing_busy u p { k with run := some (({ c with count := c.count - 1 } : CadenceRun).moveTo pos) } hheldBoth.1 hheldBoth.2
      refine ⟨front, back, htail.symm.trans hl, ?_, fun r hr => ?_, fun r hr => ?_⟩
      · rw [State.advanceRing_on _ _ hkrun (hnext.trans hpos) hon, hask, hk, hclock]
        rfl
      · rw [← hstamp, ← hclock]
        exact hfront r hr
      · rw [← hstamp, ← hclock]
        exact hback r hr
    case completes =>
      have hport : u.port = s.port := by
        rw [← hu, State.afterRelease_fields]
        rfl
      have hnow : u.now = s.now := by
        rw [← hu, State.afterRelease_fields]
        rfl
      rw [State.advanceRing_none _ _ hkrun (hnext.trans hnone)]
      rw [State.ringCompleted_eq, hnow, hport, hident, hk, IdentStatus.doneCode_eq]
      unfold State.runEnded
      rw [hident]
      rfl
  case takesA =>
    have hask := State.askGrant_setRing_freeA s p (s.ring.get p) hA
    rw [State.setRing_get_self] at hask
    exact hask
  case takesB =>
    have hask := State.askGrant_setRing_freeB s p (s.ring.get p) hA hB
    rw [State.setRing_get_self] at hask
    exact hask
  case waits =>
    have hask := State.askGrant_setRing_busy s p (s.ring.get p) hA hB
    rw [State.setRing_get_self] at hask
    exact hask
  case toggles =>
    have hnow : (s.clock.running && s.togglesNow p) = true := by
      unfold State.togglesNow
      simp only [hrun, hsub, Bool.true_and, beq_self_eq_true, decide_eq_true_eq]
      exact hdrive
    exact congrArg Host.Outcome.next (if_pos hnow)
  case noToggle =>
    have hnot : ¬ (s.clock.running && s.togglesNow p) = true := by
      unfold State.togglesNow
      simp only [Bool.and_eq_true, beq_iff_eq, decide_eq_true_eq]
      rintro ⟨hrun, hsub, hdrive⟩
      rcases hno with h | h | h
      · exact Bool.noConfusion (hrun.symm.trans h)
      · exact h hsub
      · omega
    exact congrArg Host.Outcome.next (if_neg hnot)

end Sys2Proof.Machine

/-! ## The cadence engine (R130 to R132), and the orders that start a cadence (R135, R156) -/

namespace Sys2Proof.Machine

/-! ### The search of a run's halves -/

section Search

variable (c : CadenceRun)

/-- A half that the search finds is the first in its range whose duration is not 0. -/
theorem CadenceRun.searchFrom_some (k : Nat) : ∀ {pos q : Nat}, c.searchFrom k pos = some q →
    pos ≤ q ∧ q < pos + k ∧ c.duration q ≠ 0 ∧ ∀ r, pos ≤ r → r < q → c.duration r = 0 := by
  induction k with
  | zero => exact fun h => nomatch h
  | succ k ih =>
    intro pos q h
    unfold CadenceRun.searchFrom at h
    by_cases hd : c.duration pos ≠ 0
    · rw [if_pos hd] at h
      cases h
      exact ⟨le_refl _, by omega, hd, fun r hlo hhi => absurd hlo (by omega)⟩
    · rw [if_neg hd] at h
      obtain ⟨hlo, hhi, hq, hbefore⟩ := ih h
      refine ⟨by omega, by omega, hq, fun r hr hrq => ?_⟩
      rcases Nat.eq_or_lt_of_le hr with rfl | hr
      · exact not_not.mp hd
      · exact hbefore r hr hrq

/-- A search that finds nothing has met durations of 0 alone. -/
theorem CadenceRun.searchFrom_none (k : Nat) : ∀ {pos : Nat}, c.searchFrom k pos = none → ∀ r, pos ≤ r → r < pos + k → c.duration r = 0 := by
  induction k with
  | zero => exact fun _ r hlo hhi => absurd hlo (by omega)
  | succ k ih =>
    intro pos h r hr hrk
    unfold CadenceRun.searchFrom at h
    by_cases hd : c.duration pos ≠ 0
    · rw [if_pos hd] at h
      cases h
    · rw [if_neg hd] at h
      rcases Nat.eq_or_lt_of_le hr with rfl | hr
      · exact not_not.mp hd
      · exact ih h r hr (by omega)

/-- Every duration of a record stands at a position of the play order. -/
theorem CadenceRun.exists_duration {i : Nat} (h : i < 8) : ∃ pos, pos < 8 ∧ c.duration pos = c.durations.getD i 0 := by
  cases hoff : c.offFirst with
  | false =>
    refine ⟨i, h, ?_⟩
    have hindex : (2 * (i / 2) + if c.isOn i then 0 else 1) = i := by
      unfold CadenceRun.isOn
      rw [hoff]
      rcases Nat.mod_two_eq_zero_or_one i with hi | hi <;> simp [hi] <;> omega
    unfold CadenceRun.duration
    rw [hindex]
  | true =>
    refine ⟨2 * (i / 2) + (1 - i % 2), by omega, ?_⟩
    have hindex : (2 * ((2 * (i / 2) + (1 - i % 2)) / 2) + if c.isOn (2 * (i / 2) + (1 - i % 2)) then 0 else 1) = i := by
      unfold CadenceRun.isOn
      rw [hoff]
      have hhalf : (2 * (i / 2) + (1 - i % 2)) / 2 = i / 2 := by omega
      have hmod : (2 * (i / 2) + (1 - i % 2)) % 2 = 1 - i % 2 := by omega
      rw [hhalf, hmod]
      rcases Nat.mod_two_eq_zero_or_one i with hi | hi <;> simp [hi] <;> omega
    unfold CadenceRun.duration
    rw [hindex]

/-- And a position plays no duration but one of the record's. -/
theorem CadenceRun.duration_eq_zero (h : ∀ d ∈ c.durations, d = 0) (pos : Nat) : c.duration pos = 0 := by
  unfold CadenceRun.duration
  rw [List.getD_eq_getElem?_getD]
  cases hd : c.durations[2 * (pos / 2) + if c.isOn pos then 0 else 1]? with
  | none => rfl
  | some d => exact h d (List.mem_of_getElem? hd)

/-- A record of eight durations is empty exactly when no position has a half to play. -/
theorem CadenceRun.durations_eq_zero_iff (hlen : c.durations.length = 8) : (∀ d ∈ c.durations, d = 0) ↔ ∀ pos, pos < 8 → c.duration pos = 0 := by
  refine ⟨fun h pos _ => c.duration_eq_zero h pos, fun h d hd => ?_⟩
  obtain ⟨i, hi, rfl⟩ := List.getElem_of_mem hd
  obtain ⟨pos, hpos, hdur⟩ := c.exists_duration (i := i) (by omega)
  have hzero := hdur.symm.trans (h pos hpos)
  rwa [List.getD_eq_getElem _ _ hi] at hzero

end Search

/-! ### The start of a record (R131), and its layout (R191) -/

theorem CadenceRecord.start_eq_none_iff {r : CadenceRecord} (hlen : r.durations.length = 8) : r.start = none ↔ ∀ d ∈ r.durations, d = 0 := by
  obtain ⟨c, hc⟩ : ∃ c : CadenceRun, c = { once := r.once, offFirst := r.offFirst, durations := r.durations, pos := 0, count := 0 } := ⟨_, rfl⟩
  have hdur : c.durations = r.durations := by rw [hc]
  have hstart : r.start = (c.searchFrom 8 0).map c.moveTo := by rw [hc]; rfl
  have hiff := c.durations_eq_zero_iff (by rw [hdur]; exact hlen)
  rw [hdur] at hiff
  rw [hstart, Option.map_eq_none_iff, hiff]
  refine ⟨fun h pos hpos => c.searchFrom_none 8 h pos (by omega) (by omega), fun h => ?_⟩
  cases hs : c.searchFrom 8 0 with
  | none => rfl
  | some q =>
    obtain ⟨-, hlt, hne, -⟩ := c.searchFrom_some 8 hs
    exact absurd (h q (by omega)) hne

theorem CadenceRecord.start_some {r : CadenceRecord} {c : CadenceRun} (h : r.start = some c) :
    c.once = r.once ∧ c.offFirst = r.offFirst ∧ c.durations = r.durations ∧ c.pos < 8 ∧ c.duration c.pos ≠ 0 ∧
      c.count = c.duration c.pos ∧ ∀ pos, pos < c.pos → c.duration pos = 0 := by
  obtain ⟨q, hq, rfl⟩ := Option.map_eq_some_iff.mp h
  obtain ⟨-, hlt, hne, hbefore⟩ := CadenceRun.searchFrom_some _ 8 hq
  exact ⟨rfl, rfl, rfl, (Nat.zero_add 8).symm ▸ hlt, hne, rfl, fun pos hpos => hbefore pos (by omega) hpos⟩

theorem State.cadenceRecord_length (s : State) (k : Nat) : (s.cadenceRecord k).durations.length = 8 := by
  simp [State.cadenceRecord]

/-- Settles O46: the start and the next half by the search over the halves, and a record's layout by its bytes. -/
theorem cadenceEngineFindsTheNextHalf : Obligations.CadenceEngineFindsTheNextHalf := by
  unfold Obligations.CadenceEngineFindsTheNextHalf
  refine ⟨fun r hlen => ⟨r.start_eq_none_iff hlen, fun c h => CadenceRecord.start_some h⟩,
    fun c hpos => ⟨fun pos h => ?next, fun h => ?ended⟩, fun s k => ?layout, fun c pos => ⟨?order, rfl⟩⟩
  case next =>
    unfold CadenceRun.nextHalf at h
    cases hlater : c.searchFrom (7 - c.pos) (c.pos + 1) with
    | some q =>
      rw [hlater] at h
      cases h
      obtain ⟨hlo, hhi, hne, hbefore⟩ := c.searchFrom_some _ hlater
      exact ⟨by omega, hne, Or.inl ⟨by omega, fun k hk hkpos => hbefore k (by omega) hkpos⟩⟩
    | none =>
      simp only [hlater] at h
      cases honce : c.once with
      | true => simp [honce] at h
      | false =>
        simp only [honce, Bool.false_eq_true, if_false] at h
        obtain ⟨-, hhi, hne, hbefore⟩ := c.searchFrom_some _ h
        exact ⟨by omega, hne, Or.inr ⟨rfl, fun k hk hk8 => c.searchFrom_none _ hlater k (by omega) (by omega),
          fun k hk => hbefore k (by omega) hk⟩⟩
  case ended =>
    unfold CadenceRun.nextHalf at h
    cases hlater : c.searchFrom (7 - c.pos) (c.pos + 1) with
    | some q =>
      rw [hlater] at h
      cases h
    | none =>
      simp only [hlater] at h
      refine ⟨fun k hk hk8 => c.searchFrom_none _ hlater k (by omega) (by omega), ?_⟩
      cases honce : c.once with
      | true => exact Or.inl rfl
      | false =>
        simp only [honce, Bool.false_eq_true, if_false] at h
        exact Or.inr fun k hk => c.searchFrom_none _ h k (by omega) (by omega)
  case layout =>
    refine ⟨rfl, rfl, s.cadenceRecord_length k, fun i hi => ?_⟩
    have hat : ∀ j, j < 8 → (s.cadenceRecord k).durations[j]? = some (s.halfAt (0x100 + 32 * k + 16 + 2 * j)).toNat := by
      intro j hj
      simp [State.cadenceRecord, hj]
    constructor
    · rw [hat _ (by omega), show 0x100 + 32 * k + 16 + 2 * (2 * i) = 0x100 + 32 * k + (16 + 4 * i) by omega]
      exact congrArg some (congrArg (fun a => (s.byteAt a ++ s.byteAt (0x100 + 32 * k + (16 + 4 * i))).toNat) (by omega))
    · rw [hat _ (by omega), show 0x100 + 32 * k + 16 + 2 * (2 * i + 1) = 0x100 + 32 * k + (18 + 4 * i) by omega]
      exact congrArg some (congrArg (fun a => (s.byteAt a ++ s.byteAt (0x100 + 32 * k + (18 + 4 * i))).toNat) (by omega))
  case order =>
    unfold CadenceRun.isOn
    rcases Nat.mod_two_eq_zero_or_one pos with h | h <;> cases c.offFirst <;> simp [h]

/-! ### Tone orders (R156 to R158) -/

theorem State.toneRecord_eq (s : State) (k : Nat) :
    let byte := fun i => s.byteAt (0x300 + 16 * k + i)
    s.toneRecord k = {
      f1 := (byte 1 ++ byte 0).toNat, f2 := (byte 3 ++ byte 2).toNat, a1 := (byte 5 ++ byte 4).toNat, a2 := (byte 7 ++ byte 6).toNat
      cadence := (byte 8).toNat } := rfl

theorem ToneRecord.limited_iff (r : ToneRecord) : r.limited = true ↔ 3999 < r.f1 ∨ 3999 < r.f2 ∨ 8191 < r.a1 ∨ 8191 < r.a2 := by
  simp [ToneRecord.limited, or_assoc]

/-- Settles O38: the order's tests in turn, the start by the record, and the record by its bytes. -/
theorem toneOrdersStartAndStop : Obligations.ToneOrdersStartAndStop := by
  unfold Obligations.ToneOrdersStartAndStop
  intro s p index override
  refine ⟨fun hstate => if_pos hstate, fun hstate h => ?range, fun hstate hindex hcadence hempty => ?empty,
    fun hstate hindex hcadence hsome => ?starts, fun h => ?busy, fun h => if_pos h, s.toneRecord_eq⟩
  case range =>
    unfold State.orderTone
    rw [if_neg (not_not.mpr hstate)]
    by_cases hindex : 15 < index
    · rw [if_pos hindex]
    · rw [if_neg hindex]
      exact if_pos (h.resolve_left hindex)
  case empty =>
    unfold State.orderTone
    rw [if_neg (not_not.mpr hstate), if_neg (Nat.not_lt.mpr hindex)]
    dsimp only
    rw [if_neg (Nat.not_lt.mpr hcadence), (CadenceRecord.start_eq_none_iff (s.cadenceRecord_length _)).mpr hempty]
  case starts =>
    obtain ⟨first, hfirst⟩ : ∃ first, (s.cadenceRecord (override.getD (s.toneRecord index).cadence)).start = some first := by
      refine Option.ne_none_iff_exists'.mp fun hnone => ?_
      obtain ⟨d, hd, hne⟩ := hsome
      exact hne ((CadenceRecord.start_eq_none_iff (s.cadenceRecord_length _)).mp hnone d hd)
    refine ⟨first, hfirst, ?_⟩
    unfold State.orderTone
    rw [if_neg (not_not.mpr hstate), if_neg (Nat.not_lt.mpr hindex)]
    dsimp only
    rw [if_neg (Nat.not_lt.mpr hcadence), hfirst]
    exact congrArg (Prod.mk _) (if_congr (s.toneRecord index).limited_iff rfl rfl)
  case busy =>
    unfold State.orderToneStop
    rw [h]
    rfl

/-! ### Cadence ticks of a rest and of a tone (R132, R140, R160) -/

section Rest

variable {s : State} {p : LineNo} {c : CadenceRun}

theorem State.countRest_of_run (hrun : (s.ring.get p).run = some c) :
    s.countRest p =
      if c.count - 1 = 0 ∧ (s.ident.get p).hold = false then
        (s.setRing p { s.ring.get p with run := some { c with count := c.count - 1 } }).advanceRing p
      else s.setRing p { s.ring.get p with run := some { c with count := c.count - 1 } } := by
  unfold State.countRest
  dsimp only
  rw [Ring.segment_of_run hrun, Ring.withCount_of_run hrun, State.setRing_ident]

/-- A rest that goes on, or that the identity hold keeps, only counts. -/
theorem State.countRest_counts (hrun : (s.ring.get p).run = some c) (h : 1 < c.count ∨ (s.ident.get p).hold = true) :
    s.countRest p = s.setRing p { s.ring.get p with run := some { c with count := c.count - 1 } } := by
  rw [State.countRest_of_run hrun, if_neg]
  rintro ⟨hcount, hhold⟩
  rcases h with h | h
  · omega
  · rw [hhold] at h
    cases h

/-- A rest that ends moves on to the next off-half. -/
theorem State.countRest_off (hrun : (s.ring.get p).run = some c) (hcount : c.count ≤ 1) (hhold : (s.ident.get p).hold = false) {pos : Nat}
    (hnext : c.nextHalf = some pos) (hoff : c.isOn pos = false) :
    s.countRest p = s.setRing p { s.ring.get p with run := some (c.moveTo pos), sub := .rest } := by
  rw [State.countRest_of_run hrun, if_pos ⟨by omega, hhold⟩, State.advanceRing_off s p (c := { c with count := c.count - 1 }) rfl
    ((c.nextHalf_count _).trans hnext) hoff]
  rfl

/-- A rest that ends asks for a grant for the next on-half. -/
theorem State.countRest_on (hrun : (s.ring.get p).run = some c) (hcount : c.count ≤ 1) (hhold : (s.ident.get p).hold = false) {pos : Nat}
    (hnext : c.nextHalf = some pos) (hon : c.isOn pos = true) :
    s.countRest p = (s.setRing p { s.ring.get p with run := some (c.moveTo pos) }).askGrant p := by
  rw [State.countRest_of_run hrun, if_pos ⟨by omega, hhold⟩, State.advanceRing_on s p (c := { c with count := c.count - 1 }) rfl
    ((c.nextHalf_count _).trans hnext) hon]
  rfl

/-- A rest that ends a ONCE run completes it. -/
theorem State.countRest_none (hrun : (s.ring.get p).run = some c) (hcount : c.count ≤ 1) (hhold : (s.ident.get p).hold = false)
    (hnext : c.nextHalf = none) : s.countRest p = s.ringCompleted p (s.ring.get p) := by
  rw [State.countRest_of_run hrun, if_pos ⟨by omega, hhold⟩, State.advanceRing_none s p (c := { c with count := c.count - 1 }) rfl
    ((c.nextHalf_count _).trans hnext)]
  rfl

/-- The tick of a rest, and of an identity being sent. -/
theorem exec_cadenceTick_of_rest (ht : s.canTake (.tick p) = true) (hsub : (s.ring.get p).sub = .rest ∨ (s.ring.get p).sub = .ident)
    (hrun : (s.ring.get p).run = some c) : exec (.cadenceTick p) s = .next (((s.undue (.tick p)).identStep p).countRest p) := by
  rw [exec_cadenceTick_of_canTake ht, State.tickStep_of_ring (s := s.undue (.tick p)) hrun]
  have hsub' : ((s.undue (.tick p)).ring.get p).sub = .rest ∨ ((s.undue (.tick p)).ring.get p).sub = .ident := hsub
  unfold State.ringTick
  rcases hsub' with h | h <;> simp only [h]

/-- Outside a hold, and but for SENDING and TAIL, the identity step does nothing. -/
theorem State.identStep_idle (h : (s.ident.get p).status = .pending → (s.ident.get p).hold = false)
    (hsending : (s.ident.get p).status ≠ .sending) (htail : (s.ident.get p).status ≠ .tail) : s.identStep p = s := by
  unfold State.identStep
  cases hi : (s.ident.get p).status with
  | none => simp only [hi]
  | pending =>
    simp only [hi]
    exact if_pos (h hi)
  | sending => exact absurd hi hsending
  | tail => exact absurd hi htail
  | sent => simp only [hi]

/-- A tick that ends the current half is CADENCE_ADVANCE by name. -/
theorem exec_cadenceAdvance (s : State) (p : LineNo) :
    exec (.cadenceAdvance p) s = if s.halfEndsNext p then exec (.cadenceTick p) s else .next s := by
  show Host.Outcome.next (if s.halfEndsNext p then s.tickEvent p else s) = _
  split <;> rfl

theorem State.tickStep_of_tone (hring : (s.ring.get p).run = none) : s.tickStep p = s.toneTick p := by
  unfold State.tickStep
  simp only [hring]

theorem State.toneTick_none (h : (s.tone.get p).run = none) : s.toneTick p = s := by
  unfold State.toneTick
  simp only [h]

theorem State.toneTick_counts (h : (s.tone.get p).run = some c) (hcount : 1 < c.count) :
    s.toneTick p = s.setTone p { s.tone.get p with run := some { c with count := c.count - 1 } } := by
  unfold State.toneTick
  simp only [h, if_pos hcount]

theorem State.toneTick_next (h : (s.tone.get p).run = some c) (hcount : c.count ≤ 1) {pos : Nat} (hnext : c.nextHalf = some pos) :
    s.toneTick p = s.setTone p ((s.tone.get p).toHalf (c.moveTo pos)) := by
  unfold State.toneTick
  simp only [h, if_neg (Nat.not_lt.mpr hcount), hnext]

theorem State.toneTick_ended (h : (s.tone.get p).run = some c) (hcount : c.count ≤ 1) (hnext : c.nextHalf = none) :
    s.toneTick p = (s.endTone p).giveLineMark .toneDone p (BitVec.ofNat 16 (s.tone.get p).index) (BitVec.ofNat 32 (s.tone.get p).cadence) := by
  unfold State.toneTick
  simp only [h, if_neg (Nat.not_lt.mpr hcount), hnext]

theorem State.halfEndsNext_tone (hring : (s.ring.get p).run = none) (h : (s.tone.get p).run = some c) :
    s.halfEndsNext p = decide (c.count ≤ 1) := by
  unfold State.halfEndsNext
  simp only [hring, h]

theorem State.halfEndsNext_burst (h : (s.ring.get p).run = some c) (hsub : (s.ring.get p).sub = .burst) :
    s.halfEndsNext p = decide (c.count ≤ 1) := by
  unfold State.halfEndsNext
  simp only [h, hsub]

/-- A half of a rest ends at a count of 1, unless a hold keeps it. -/
theorem State.halfEndsNext_rest (h : (s.ring.get p).run = some c) (hsub : (s.ring.get p).sub = .rest) :
    s.halfEndsNext p = (decide (c.count ≤ 1) && !s.heldNext p) := by
  unfold State.halfEndsNext
  simp only [h, hsub]

theorem State.heldNext_of_hold (h : (s.ident.get p).hold = false) : s.heldNext p = false := by
  unfold State.heldNext
  dsimp only
  rw [h]
  rfl

end Rest

/-- Settles O47: a tick by what has a run, a tone's by its count and its next half, and a rest's by the same once the identity step does
nothing. -/
theorem cadenceTickCountsAndAdvances : Obligations.CadenceTickCountsAndAdvances := by
  unfold Obligations.CadenceTickCountsAndAdvances
  intro p s ht g t i u tick advance
  have htone : g.run = none → tick = .next (u.toneTick p) := fun hring => by
    show exec (.cadenceTick p) s = _
    rw [exec_cadenceTick_of_canTake ht, State.tickStep_of_tone (s := s.undue (.tick p)) hring]
  have hadvance : s.halfEndsNext p = true → advance = tick := fun h => (exec_cadenceAdvance s p).trans (if_pos h)
  have hstays : ¬ s.halfEndsNext p = true → advance = .next s := fun h => (exec_cadenceAdvance s p).trans (if_neg h)
  refine ⟨fun hring hrun => ?idle, fun c hrun hsub => ?waits, fun c hrun hsub hcount => ?ringCounts, fun c hring hrun hcount => ?toneCounts,
    fun c pos hring hrun hcount hnext => ?toneNext, fun c hring hrun hcount hnext => ?toneEnds,
    fun c hrun hsub hstatus hhold hcount => ?rest⟩
  case idle => exact (htone hring).trans (congrArg Host.Outcome.next (State.toneTick_none (s := u) hrun))
  case waits =>
    show exec (.cadenceTick p) s = _
    rw [exec_cadenceTick_of_canTake ht, State.tickStep_of_ring (s := s.undue (.tick p)) hrun]
    have hsub' : ((s.undue (.tick p)).ring.get p).sub = .waitGrant := hsub
    unfold State.ringTick
    simp only [hsub']
    rfl
  case ringCounts =>
    have hnot : ¬ c.count ≤ 1 := Nat.not_le.mpr hcount
    refine ⟨?_, hstays ?_⟩
    · show exec (.cadenceTick p) s = _
      rcases hsub with hsub | ⟨hsub, hpending, hsending, htail⟩
      · rw [exec_cadenceTick_of_canTake ht, State.tickStep_of_ring (s := s.undue (.tick p)) hrun,
          State.ringTick_burst (s := s.undue (.tick p)) hsub hrun, if_neg hnot]
        rfl
      · rw [exec_cadenceTick_of_rest ht (Or.inl hsub) hrun, State.identStep_idle (s := s.undue (.tick p)) hpending hsending htail,
          State.countRest_counts (s := s.undue (.tick p)) hrun (Or.inl hcount)]
        rfl
    · rcases hsub with hsub | ⟨hsub, -, -, -⟩
      · rw [State.halfEndsNext_burst hrun hsub]
        simpa using hcount
      · rw [State.halfEndsNext_rest hrun hsub]
        simp [hnot]
  case toneCounts =>
    refine ⟨(htone hring).trans (congrArg Host.Outcome.next (State.toneTick_counts (s := u) hrun hcount)), hstays ?_⟩
    rw [State.halfEndsNext_tone hring hrun]
    simpa using hcount
  case toneNext =>
    have hsame : advance = tick := hadvance ((State.halfEndsNext_tone hring hrun).trans (decide_eq_true hcount))
    have hmoved := hsame.trans ((htone hring).trans (congrArg Host.Outcome.next (State.toneTick_next (s := u) hrun hcount hnext)))
    exact ⟨hsame, fun hon => hmoved.trans (congrArg (fun t => Host.Outcome.next (u.setTone p t)) (if_pos hon)),
      fun hoff => hmoved.trans (congrArg (fun t => Host.Outcome.next (u.setTone p t)) (if_neg (Bool.eq_false_iff.mp hoff)))⟩
  case toneEnds =>
    have hsame : advance = tick := hadvance ((State.halfEndsNext_tone hring hrun).trans (decide_eq_true hcount))
    exact ⟨hsame, hsame.trans ((htone hring).trans (congrArg Host.Outcome.next (State.toneTick_ended (s := u) hrun hcount hnext)))⟩
  case rest =>
    have hends : s.halfEndsNext p = true := by
      rw [State.halfEndsNext_rest hrun hsub, State.heldNext_of_hold hhold, decide_eq_true hcount]
      rfl
    have hsame : advance = tick := hadvance hends
    have hidle : u.identStep p = u := by
      refine State.identStep_idle (s := u) (fun _ => hhold) (fun h => ?_) (fun h => ?_)
      · rcases hstatus with e | e | e <;> cases e.symm.trans h
      · rcases hstatus with e | e | e <;> cases e.symm.trans h
    have hrest : advance = .next (u.countRest p) := by
      refine hsame.trans ?_
      show exec (.cadenceTick p) s = _
      rw [exec_cadenceTick_of_rest ht (Or.inl hsub) hrun]
      exact congrArg (fun w : State => Host.Outcome.next (w.countRest p)) hidle
    refine ⟨hsame, fun pos hnext => ⟨fun hoff => ?off, fun hon => ?on, fun hon hA => ?granted⟩, fun hnext => ?completes⟩
    case off =>
      rw [hrest, State.countRest_off (s := u) hrun hcount hhold hnext hoff, ← show g.sub = .rest from hsub]
      rfl
    case on => exact hrest.trans (congrArg Host.Outcome.next (State.countRest_on (s := u) hrun hcount hhold hnext hon))
    case granted =>
      rw [hrest, State.countRest_on (s := u) hrun hcount hhold hnext hon, State.askGrant_setRing_freeA u p _ hA]
      rfl
    case completes =>
      rw [hrest, State.countRest_none (s := u) hrun hcount hhold hnext, State.ringCompleted_eq, IdentStatus.doneCode_eq]
      unfold State.runEnded Ident.ended
      rw [← show i.hold = false from hhold]
      rfl

end Sys2Proof.Machine

/-! ## Caller identity (R150), and the RING order (R135, R136) -/

namespace Sys2Proof.Machine

/-! ### The identity step, by status (R150) -/

section Identity

variable {s : State} {p : LineNo} {c : CadenceRun}

theorem State.identStep_starts (h : (s.ident.get p).status = .pending) (hhold : (s.ident.get p).hold = true) (hdelay : (s.ident.get p).delay ≤ 1) :
    s.identStep p = (s.setIdent p { s.ident.get p with
      delay := 0, status := .sending, send := sendTicks (s.ident.get p).buffer.length, sent := 0, phase := 0 }).setRing p
        { s.ring.get p with sub := .ident } := by
  unfold State.identStep
  simp only [h, hhold, Bool.true_eq_false, if_false, if_pos hdelay]

theorem State.identStep_delays (h : (s.ident.get p).status = .pending) (hhold : (s.ident.get p).hold = true) (hdelay : 1 < (s.ident.get p).delay) :
    s.identStep p = s.setIdent p { s.ident.get p with delay := (s.ident.get p).delay - 1 } := by
  unfold State.identStep
  simp only [h, hhold, Bool.true_eq_false, if_false, if_neg (Nat.not_le.mpr hdelay)]

theorem State.identStep_sent (h : (s.ident.get p).status = .sending) (hsend : (s.ident.get p).send ≤ 1) :
    s.identStep p = ((s.setIdent p { s.ident.get p with send := 0, status := .tail, tail := 20 }).setRing p
      { s.ring.get p with sub := .rest }).giveLineMark .identSent p (BitVec.ofNat 16 ((s.ident.get p).buffer.length - 1))
        (BitVec.ofNat 32 (streamBits (s.ident.get p).buffer.length)) := by
  unfold State.identStep
  simp only [h, if_pos hsend]

theorem State.identStep_sends (h : (s.ident.get p).status = .sending) (hsend : 1 < (s.ident.get p).send) :
    s.identStep p = s.setIdent p { s.ident.get p with send := (s.ident.get p).send - 1 } := by
  unfold State.identStep
  simp only [h, if_neg (Nat.not_le.mpr hsend)]

theorem State.identStep_tailEnds (h : (s.ident.get p).status = .tail) (htail : (s.ident.get p).tail ≤ 1) :
    s.identStep p = s.setIdent p { s.ident.get p with tail := 0, status := .sent, hold := false } := by
  unfold State.identStep
  simp only [h, if_pos htail]

theorem State.identStep_tail (h : (s.ident.get p).status = .tail) (htail : 1 < (s.ident.get p).tail) :
    s.identStep p = s.setIdent p { s.ident.get p with tail := (s.ident.get p).tail - 1 } := by
  unfold State.identStep
  simp only [h, if_neg (Nat.not_le.mpr htail)]

/-- A tick at which identity alone moves on while the rest's count falls. -/
theorem exec_cadenceTick_counts (ht : s.canTake (.tick p) = true) (hsub : (s.ring.get p).sub = .rest ∨ (s.ring.get p).sub = .ident)
    (hrun : (s.ring.get p).run = some c) {i : Ident} (hstep : (s.undue (.tick p)).identStep p = (s.undue (.tick p)).setIdent p i)
    (h : 1 < c.count ∨ i.hold = true) :
    exec (.cadenceTick p) s = .next (((s.undue (.tick p)).setIdent p i).setRing p
      { s.ring.get p with run := some { c with count := c.count - 1 } }) := by
  rw [exec_cadenceTick_of_rest ht hsub hrun, hstep, State.countRest_counts (s := (s.undue (.tick p)).setIdent p i) hrun (by simpa using h)]
  rfl

end Identity

theorem exec_identStart (s : State) (p : LineNo) (hrun : (s.ring.get p).run.isSome) (h : (s.ident.get p).status = .pending)
    (hhold : (s.ident.get p).hold = true) (hdelay : (s.ident.get p).delay ≤ 1) : exec (.identStart p) s = exec (.cadenceTick p) s :=
  congrArg Host.Outcome.next (if_pos (by simp [hrun, h, hhold, hdelay]))

theorem exec_identSent (s : State) (p : LineNo) (hrun : (s.ring.get p).run.isSome) (h : (s.ident.get p).status = .sending)
    (hsend : (s.ident.get p).send ≤ 1) : exec (.identSent p) s = exec (.cadenceTick p) s :=
  congrArg Host.Outcome.next (if_pos (by simp [hrun, h, hsend]))

theorem exec_identTailEnd (s : State) (p : LineNo) (hrun : (s.ring.get p).run.isSome) (h : (s.ident.get p).status = .tail)
    (htail : (s.ident.get p).tail ≤ 1) : exec (.identTailEnd p) s = exec (.cadenceTick p) s :=
  congrArg Host.Outcome.next (if_pos (by simp [hrun, h, htail]))

/-- Settles O44: the identity step by its status and count, and the rest's own count and end behind it. -/
theorem identityMovesOnAtItsTicks : Obligations.IdentityMovesOnAtItsTicks := by
  unfold Obligations.IdentityMovesOnAtItsTicks
  intro p s c ht hrun g i u counted bits
  have hsome : (s.ring.get p).run.isSome := by rw [hrun]; rfl
  refine ⟨fun hsub hi hhold hdelay => ?starts, fun hsub hi hhold hsend => ?sent, fun hsub hi htail hcount => ?tailEnds,
    fun hsub hi htail hcount => ?tailAndRestEnd, fun hsub hi hhold hsend => ?sends, fun hsub hi hhold htail => ?tail,
    fun hsub hi hhold hdelay => ?delays⟩
  case starts =>
    have hname := exec_identStart s p hsome hi hhold hdelay
    refine ⟨hname, ?_⟩
    rw [hname, exec_cadenceTick_of_rest ht (Or.inl hsub) hrun, State.identStep_starts (s := s.undue (.tick p)) hi hhold hdelay,
      State.countRest_counts (c := c) (by simpa using hrun) (Or.inr (by simpa using hhold)), State.setRing_ring_get, State.setRing_setRing]
    rfl
  case sent =>
    have hname := exec_identSent s p hsome hi hsend
    refine ⟨hname, ?_⟩
    rw [hname, exec_cadenceTick_of_rest ht (Or.inr hsub) hrun, State.identStep_sent (s := s.undue (.tick p)) hi hsend,
      State.countRest_counts (c := c) (by simpa [State.giveLineMark] using hrun) (Or.inr (by simpa [State.giveLineMark] using hhold))]
    unfold State.giveLineMark
    rw [State.giveMark_ring, State.setRing_ring_get, ← State.giveMark_setRing, State.setRing_setRing]
    rfl
  case tailEnds =>
    have hname := exec_identTailEnd s p hsome hi htail
    exact ⟨hname, hname.trans (exec_cadenceTick_counts ht (Or.inl hsub) hrun (State.identStep_tailEnds (s := u) hi htail) (Or.inl hcount))⟩
  case tailAndRestEnd =>
    intro sent
    have hname := exec_identTailEnd s p hsome hi htail
    have hrun' : (sent.ring.get p).run = some c := hrun
    have hlifted : (sent.ident.get p).hold = false := by simp [sent]
    have htick : exec (.identTailEnd p) s = .next (sent.countRest p) := by
      rw [hname, exec_cadenceTick_of_rest ht (Or.inl hsub) hrun, State.identStep_tailEnds (s := s.undue (.tick p)) hi htail]
      rfl
    refine ⟨hname, fun pos hnext => ?_, fun hnext => ?_⟩
    · refine ⟨fun hoff => ?_, fun hon => ?_⟩
      · rw [htick, State.countRest_off hrun' hcount hlifted hnext hoff]
        rfl
      · rw [htick, State.countRest_on hrun' hcount hlifted hnext hon, ← show g.sub = .rest from hsub]
        rfl
    · rw [htick, State.countRest_none hrun' hcount hlifted hnext, State.ringCompleted_eq]
      unfold State.runEnded Ident.ended
      simp only [sent, State.setIdent, State.setRing, Four.set_set, Four.get_set_same]
      rfl
  case sends =>
    exact exec_cadenceTick_counts ht (Or.inr hsub) hrun (State.identStep_sends (s := u) hi hsend) (Or.inr hhold)
  case tail =>
    exact exec_cadenceTick_counts ht (Or.inl hsub) hrun (State.identStep_tail (s := u) hi htail) (Or.inr hhold)
  case delays =>
    exact exec_cadenceTick_counts ht (Or.inl hsub) hrun (State.identStep_delays (s := u) hi hhold hdelay) (Or.inr hhold)

/-! ### The RING order (R135, R136) -/

/-- The checksum brings the sum of a buffer to a multiple of 256 (R148). -/
theorem sum_append_identChecksum (body : List Byte) : ((body ++ [identChecksum body]).map BitVec.toNat).sum % 256 = 0 := by
  have hsum : (identChecksum body).toNat = (256 - (body.map BitVec.toNat).sum % 256) % 256 := by
    unfold identChecksum byteOf
    rw [BitVec.toNat_ofNat]
    omega
  rw [List.map_append, List.sum_append, List.map_singleton, List.sum_singleton, hsum]
  omega

/-- A tick taken away is due no more, and every other event is as due as it was. -/
theorem State.canTake_undue_tick (s : State) (p : LineNo) :
    (s.undue (.tick p)).canTake (.tick p) = false ∧ ∀ e, e ≠ .tick p → (s.undue (.tick p)).canTake e = s.canTake e := by
  refine ⟨?_, fun e he => ?_⟩
  · unfold State.canTake
    simp [Due.has, Due.without]
  · cases e with
    | tick q =>
      have hne : q ≠ p := fun h => he (congrArg Event.tick h)
      unfold State.canTake
      simp [Due.has, Due.without, Four.get_set_other _ _ hne]
    | _ => rfl

section RingOrder

variable (s : State) (p : LineNo)

/-- The part with an accepted RING order, before the run begins its first half (R136). -/
def State.ringOrdered (body : List Byte) : State :=
  ((s.undue (.tick p)).setPort p { s.port.get p with state := .ringing, breakCount := none, gapCount := none, pulses := 0 }).setIdent p
    { Ident.reset with
      status := if body.isEmpty then .none else .pending
      buffer := if body.isEmpty then [] else body ++ [identChecksum body] }

/-- The ring context of a run that has begun no half. -/
def Ring.started (g : Ring) (first : CadenceRun) (freq : Nat) : Ring := { g with run := some first, freq := freq, trip := 0, bursts := 0 }

/-- An accepted order begins the first half: an on-half asks for a grant, an off-half rests. -/
theorem State.startRing_eq (first : CadenceRun) (freq : Nat) (body : List Byte) :
    s.startRing p first freq body =
      if first.onHalf then ((s.ringOrdered p body).setRing p ((s.ring.get p).started first freq)).askGrant p
      else (s.ringOrdered p body).setRing p { (s.ring.get p).started first freq with sub := .rest } := by
  have hstart : s.startRing p first freq body =
      if first.onHalf then ((s.ringOrdered p body).setRing p ((s.ring.get p).started first freq)).askGrant p
      else ((s.ringOrdered p body).setRing p ((s.ring.get p).started first freq)).setRing p
        { ((s.ringOrdered p body).setRing p ((s.ring.get p).started first freq)).ring.get p with sub := .rest } := rfl
  rw [hstart, State.setRing_ring_get, State.setRing_setRing]

end RingOrder

theorem clampNat_freq_eq (freq : Nat) : clampNat freq 9 49 = max 9 (min 49 freq) := clampNat_eq_max_min (by omega)

theorem clampNat_freq_eq_iff (freq : Nat) : clampNat freq 9 49 = freq ↔ ¬ (freq < 9 ∨ 49 < freq) := by
  rw [clampNat_freq_eq]
  omega

section RingTests

variable {s : State} {p : LineNo} {cadence : Nat} (hstate : (s.port.get p).state = .idle) (hcadence : cadence ≤ 15)
  (n : CellNo) (count freq len off : Nat)
include hstate hcadence

/-- The identity of an order has to fit. -/
theorem State.orderRing_misplaced (h : 200 < len ∨ (0 < len ∧ inAnnex count off len = false)) :
    s.orderRing p n count cadence freq len off = (s, .badParam) := by
  unfold State.orderRing
  rw [if_neg (not_not.mpr hstate), if_neg (Nat.not_lt.mpr hcadence), if_pos h]

variable (hfits : ¬ (200 < len ∨ (0 < len ∧ inAnnex count off len = false)))
include hfits

theorem State.orderRing_empty (h : (s.cadenceRecord cadence).start = none) :
    s.orderRing p n count cadence freq len off = (s, .emptyCadence) := by
  unfold State.orderRing
  rw [if_neg (not_not.mpr hstate), if_neg (Nat.not_lt.mpr hcadence), if_neg hfits]
  simp only [h]

theorem State.orderRing_starts {first : CadenceRun} (h : (s.cadenceRecord cadence).start = some first) :
    s.orderRing p n count cadence freq len off =
      (s.startRing p first (clampNat freq 9 49) (s.area n off len), if clampNat freq 9 49 = freq then .started else .adjusted) := by
  unfold State.orderRing
  rw [if_neg (not_not.mpr hstate), if_neg (Nat.not_lt.mpr hcadence), if_neg hfits]
  simp only [h]

end RingTests

/-- Settles O37: the order's tests in turn, and the start by its first half and the grants. -/
theorem ringOrderStartsTheRun : Obligations.RingOrderStartsTheRun := by
  unfold Obligations.RingOrderStartsTheRun
  intro s p n count cadence freq len off run rec0 misplaced body
  refine ⟨fun hstate => if_pos hstate, fun hstate hcadence => ?cadence, fun hstate hcadence h => ?identity,
    fun hstate hcadence hlen hplaced hempty => ?empty, fun hstate hcadence hlen hplaced hsome => ?starts⟩
  case cadence => exact (if_neg (not_not.mpr hstate)).trans (if_pos hcadence)
  case identity =>
    refine State.orderRing_misplaced hstate hcadence n count freq len off (h.imp_right fun hm => ?_)
    exact ⟨hm.1, (inAnnex_eq_false _ _ _).mpr hm.2⟩
  all_goals
    have hpasses : ¬ (200 < len ∨ (0 < len ∧ inAnnex count off len = false)) := by
      rintro (h | ⟨hpos, h⟩)
      · omega
      · exact hplaced ⟨hpos, (inAnnex_eq_false _ _ _).mp h⟩
  case empty =>
    exact State.orderRing_empty hstate hcadence n count freq len off hpasses
      ((CadenceRecord.start_eq_none_iff (s.cadenceRecord_length _)).mpr hempty)
  case starts =>
    obtain ⟨first, hfirst⟩ : ∃ first, rec0.start = some first := by
      refine Option.ne_none_iff_exists'.mp fun hnone => ?_
      obtain ⟨d, hd, hne⟩ := hsome
      exact hne ((CadenceRecord.start_eq_none_iff (s.cadenceRecord_length _)).mp hnone d hd)
    have hrun : run = (s.startRing p first (clampNat freq 9 49) body, if clampNat freq 9 49 = freq then .started else .adjusted) :=
      State.orderRing_starts hstate hcadence n count freq len off hpasses hfirst
    have hfreq := clampNat_freq_eq freq
    have hempty : body.isEmpty = true ↔ len = 0 := by simp [body]
    obtain ⟨honce, hoff, hdur, -, hne, hcount, hbefore⟩ := CadenceRecord.start_some hfirst
    refine ⟨?_, first, identChecksum body, honce, hoff, hdur, hne, hbefore, hcount, sum_append_identChecksum body, ?_⟩
    · rw [hrun]
      dsimp only
      by_cases hclamped : clampNat freq 9 49 = freq
      · rw [if_pos hclamped, if_neg ((clampNat_freq_eq_iff freq).mp hclamped)]
      · rw [if_neg hclamped, if_pos (not_not.mp fun h => hclamped ((clampNat_freq_eq_iff freq).mpr h))]
    · intro port ident u ring burst
      have hu : s.ringOrdered p body = u := by
        show State.setIdent _ p _ = State.setIdent _ p _
        rw [if_congr hempty rfl rfl, if_congr hempty rfl rfl]
      have hring : (s.ring.get p).started first (clampNat freq 9 49) = ring := by
        unfold Ring.started
        rw [hfreq]
      have hmoved : first.moveTo first.pos = first := by
        unfold CadenceRun.moveTo
        rw [← hcount]
      have hstart : run.1 = if first.onHalf then (u.setRing p ring).askGrant p else u.setRing p { ring with sub := .rest } := by
        rw [hrun, ← hu, ← hring]
        exact s.startRing_eq p first _ body
      have hrestart : ring.run.map (fun c => c.moveTo c.pos) = ring.run := congrArg some hmoved
      have hburst : u.setRing p ring.inBurst = burst := by
        unfold Ring.inBurst
        rw [hrestart]
        rfl
      refine ⟨(s.canTake_undue_tick p).1, (s.canTake_undue_tick p).2, fun hon => ?rests, fun hon hA => ?takesA, fun hon hA hB => ?takesB,
        fun hon hA hB => ?waits⟩
      case rests => exact hstart.trans (if_neg (by simp [hon]))
      case takesA =>
        rw [hstart, if_pos hon, State.askGrant_setRing_freeA u p ring hA, hburst]
        rfl
      case takesB =>
        rw [hstart, if_pos hon, State.askGrant_setRing_freeB u p ring hA hB, hburst]
        rfl
      case waits =>
        obtain ⟨front, back, hl, hask, hfront, hback⟩ := State.askGrant_setRing_busy u p ring hA hB
        refine ⟨front, back, hl, ?_, hfront, hback⟩
        rw [hstart, if_pos hon, hask]
        unfold Ring.inWait
        rw [hrestart]
        rfl

end Sys2Proof.Machine

/-! ## The verdict events: the digit debounce and the tone runs (R163, R165, R167, R168) -/

namespace Sys2Proof.Machine

/-! ### Marks given after a verdict state is set -/

section Judged

variable {s t : State} {p : LineNo}

theorem State.setVerdict_verdict_get (s : State) (p : LineNo) (v : Verdict) : (s.setVerdict p v).verdict.get p = v := by simp

theorem State.setVerdict_setVerdict (s : State) (p : LineNo) (v w : Verdict) : (s.setVerdict p v).setVerdict p w = s.setVerdict p w := by
  simp [State.setVerdict]

theorem State.setVerdict_get_self (s : State) (p : LineNo) : s.setVerdict p (s.verdict.get p) = s :=
  congrArg (fun v => { s with verdict := v }) (s.verdict.set_get p)

/-- A part whose verdict state at a port is replaced, and that then gives marks. -/
def State.Judged (s : State) (p : LineNo) (v : Verdict) (t : State) : Prop := ∃ ms : List Mark, t = (s.setVerdict p v).giveMarks ms

theorem State.giveMarks_append (s : State) (ms ns : List Mark) : s.giveMarks (ms ++ ns) = (s.giveMarks ms).giveMarks ns := by
  simp [State.giveMarks]

theorem State.giveMarks_setVerdict (p : LineNo) (v : Verdict) (ms : List Mark) :
    ∀ s : State, (s.setVerdict p v).giveMarks ms = (s.giveMarks ms).setVerdict p v := by
  unfold State.giveMarks
  induction ms with
  | nil => exact fun s => rfl
  | cons m ms ih =>
    intro s
    rw [List.foldl_cons, List.foldl_cons, State.giveMark_setVerdict, ih]

theorem State.giveMarks_eq (ms : List Mark) :
    ∀ s : State, s.giveMarks ms = { s with mem := (s.giveMarks ms).mem, ex := (s.giveMarks ms).ex, marks := (s.giveMarks ms).marks } := by
  unfold State.giveMarks
  induction ms with
  | nil => exact fun s => rfl
  | cons m ms ih =>
    intro s
    rw [List.foldl_cons, ih (s.giveMark m), State.giveMark_eq s m]

theorem State.judged_setVerdict (s : State) (p : LineNo) (v : Verdict) : s.Judged p v (s.setVerdict p v) := ⟨[], rfl⟩

theorem State.judged_giveMark (s : State) (p : LineNo) (v : Verdict) (m : Mark) : s.Judged p v ((s.setVerdict p v).giveMark m) := ⟨[m], rfl⟩

theorem State.Judged.trans {u : State} {v w : Verdict} (h : s.Judged p v t) (g : t.Judged p w u) : s.Judged p w u := by
  obtain ⟨ms, rfl⟩ := h
  obtain ⟨ns, rfl⟩ := g
  refine ⟨ms ++ ns, ?_⟩
  rw [State.giveMarks_setVerdict p v, State.setVerdict_setVerdict, ← State.giveMarks_setVerdict, ← State.giveMarks_append]

/-- What such a part keeps of the part before. -/
theorem State.Judged.fields {v : Verdict} (h : s.Judged p v t) : t.verdict.get p = v ∧ (∀ m, m ≠ p → t.verdict.get m = s.verdict.get m) ∧
    t.chan = s.chan ∧ t.cap = s.cap ∧ t.port = s.port ∧ t.ring = s.ring ∧ t.ident = s.ident ∧ t.arb = s.arb ∧ t.tone = s.tone ∧
    t.clock = s.clock ∧ t.bus = s.bus ∧ t.pending = s.pending := by
  obtain ⟨ms, rfl⟩ := h
  rw [State.giveMarks_eq]
  exact ⟨Four.get_set_same _ _ _, fun m hm => Four.get_set_other _ _ hm, rfl, rfl, rfl, rfl, rfl, rfl, rfl, rfl, rfl, rfl⟩

end Judged

/-! ### The digit debounce (R167) -/

section Debounce

variable (s : State) (p : LineNo) (time : Word) {w : Verdict} {d : Nat}

theorem State.digitOffStep_none (h : w.digitOn = none) : (s.setVerdict p w).digitOffStep p time = s.setVerdict p w := by
  unfold State.digitOffStep
  simp only [State.setVerdict_verdict_get, h]

theorem State.digitOffStep_stays (h : w.digitOn = some d) (hrun : w.offRun < 4) : (s.setVerdict p w).digitOffStep p time = s.setVerdict p w := by
  unfold State.digitOffStep
  simp only [State.setVerdict_verdict_get, h, if_neg (Nat.not_le.mpr hrun)]

theorem State.digitOffStep_off (h : w.digitOn = some d) (hrun : 4 ≤ w.offRun) :
    (s.setVerdict p w).digitOffStep p time = (s.setVerdict p { w with digitOn := none, offRun := 0, onCount := 0 }).giveVerdictMark
      .digitOff p time (BitVec.ofNat 16 d) (BitVec.ofNat 32 (w.onCount - 4)) := by
  unfold State.digitOffStep
  simp only [State.setVerdict_verdict_get, h, if_pos hrun, State.setVerdict_setVerdict]

theorem State.digitOnStep_some (h : w.digitOn = some d) : (s.setVerdict p w).digitOnStep p time = s.setVerdict p w := by
  unfold State.digitOnStep
  simp only [State.setVerdict_verdict_get, h]

theorem State.digitOnStep_noCandidate (h : w.candidate = none) : (s.setVerdict p w).digitOnStep p time = s.setVerdict p w := by
  unfold State.digitOnStep
  cases hon : w.digitOn <;> simp only [State.setVerdict_verdict_get, hon, h]

theorem State.digitOnStep_short (hc : w.candidate = some d) (hrun : w.candRun ≠ 4) : (s.setVerdict p w).digitOnStep p time = s.setVerdict p w := by
  unfold State.digitOnStep
  cases hon : w.digitOn <;> simp only [State.setVerdict_verdict_get, hon, hc, if_neg hrun]

theorem State.digitOnStep_on (h : w.digitOn = none) (hc : w.candidate = some d) (hrun : w.candRun = 4) :
    (s.setVerdict p w).digitOnStep p time = (s.setVerdict p { w with digitOn := some d, onCount := 4, offRun := 0 }).giveVerdictMark
      .digitOn p time (BitVec.ofNat 16 d) 0 := by
  unfold State.digitOnStep
  simp only [State.setVerdict_verdict_get, h, hc, if_pos hrun, State.setVerdict_setVerdict]

/-- The debounce by the verdict it counts with: what goes off does so before what goes on. -/
theorem State.debounce_none {fv : FrameVerdict} (h : ((s.verdict.get p).withCandidate fv).digitOn = none) :
    s.debounce p time fv = (s.setVerdict p ((s.verdict.get p).withCandidate fv)).digitOnStep p time := by
  unfold State.debounce
  simp only [h]
  rw [State.digitOffStep_none s p time h]

theorem State.debounce_some {fv : FrameVerdict} (h : ((s.verdict.get p).withCandidate fv).digitOn = some d) :
    s.debounce p time fv =
      ((s.setVerdict p (((s.verdict.get p).withCandidate fv).countOn fv d)).digitOffStep p time).digitOnStep p time := by
  unfold State.debounce
  simp only [h]

/-- A digit that is on goes on: its counts alone move. -/
theorem State.debounce_stays {fv : FrameVerdict} (h : ((s.verdict.get p).withCandidate fv).digitOn = some d)
    (hrun : (((s.verdict.get p).withCandidate fv).countOn fv d).offRun < 4) :
    s.debounce p time fv = s.setVerdict p (((s.verdict.get p).withCandidate fv).countOn fv d) := by
  have hon : (((s.verdict.get p).withCandidate fv).countOn fv d).digitOn = some d := h
  rw [State.debounce_some s p time h, State.digitOffStep_stays s p time hon hrun, State.digitOnStep_some s p time hon]

/-- A digit that goes off gives its mark, and leaves the place to the candidate. -/
theorem State.debounce_off {fv : FrameVerdict} (h : ((s.verdict.get p).withCandidate fv).digitOn = some d)
    (hrun : 4 ≤ (((s.verdict.get p).withCandidate fv).countOn fv d).offRun) {m : Mark}
    (hm : m = Mark.mk .digitOff (lineByte p) (BitVec.ofNat 16 d) time
      (BitVec.ofNat 32 ((((s.verdict.get p).withCandidate fv).countOn fv d).onCount - 4))) :
    s.debounce p time fv = ((s.giveMark m).setVerdict p
      { (((s.verdict.get p).withCandidate fv).countOn fv d) with digitOn := none, offRun := 0, onCount := 0 }).digitOnStep p time := by
  have hon : (((s.verdict.get p).withCandidate fv).countOn fv d).digitOn = some d := h
  rw [State.debounce_some s p time h, State.digitOffStep_off s p time hon hrun]
  unfold State.giveVerdictMark
  rw [← hm, State.giveMark_setVerdict]

end Debounce

/-- A verdict that is no digit leaves no candidate. -/
theorem Verdict.withCandidate_other (v : Verdict) {fv : FrameVerdict} (h : fv = .noVerdict ∨ fv = .answerTone ∨ fv = .callingTone) :
    v.withCandidate fv = { v with candidate := none, candRun := 0 } := by
  rcases h with rfl | rfl | rfl <;> rfl

theorem Verdict.countOn_same (v : Verdict) (d : Nat) :
    v.countOn (.digit d) d = { v with onCount := min 65535 (v.onCount + 1), offRun := 0 } := by
  unfold Verdict.countOn
  rw [if_pos rfl]

theorem Verdict.countOn_other (v : Verdict) {fv : FrameVerdict} {d : Nat} (h : fv ≠ .digit d) :
    v.countOn fv d = { v with onCount := min 65535 (v.onCount + 1), offRun := v.offRun + 1 } := by
  unfold Verdict.countOn
  rw [if_neg h]

/-- Settles O49: the candidate and the counts of each case, and then what goes off and what goes on. -/
theorem debounceTurnsDigitsOnAndOff : Obligations.DebounceTurnsDigitsOnAndOff := by
  unfold Obligations.DebounceTurnsDigitsOnAndOff
  intro s p time v mark other onCount candidate
  have hdigit : ∀ e, v.withCandidate (.digit e) = { v with candidate := some e, candRun := candidate e } := fun e => rfl
  have hnodigit : ∀ fv e, other fv → fv ≠ .digit e := by
    rintro fv e (rfl | rfl | rfl) <;> exact nofun
  refine ⟨fun d hoff hfour => ?on, fun d hoff hfour => ?counts, fun fv hother hoff => ?silent, fun d hon => ?stays,
    fun d fv hother hon hrun => ?missing, fun d fv hother hon hrun => ?off, fun d e hde hon => ?replaced⟩
  case on =>
    rw [State.debounce_none s p time (fv := .digit d) hoff, hdigit, hfour]
    exact State.digitOnStep_on s p time hoff rfl rfl
  case counts =>
    rw [State.debounce_none s p time (fv := .digit d) hoff, hdigit]
    exact State.digitOnStep_short s p time rfl hfour
  case silent =>
    have hcand := v.withCandidate_other hother
    rw [State.debounce_none s p time (by rw [hcand]; exact hoff), hcand]
    exact State.digitOnStep_noCandidate s p time rfl
  case stays =>
    have hcount := (v.withCandidate (.digit d)).countOn_same d
    rw [State.debounce_stays s p time (fv := .digit d) (d := d) hon (by rw [hcount]; exact Nat.zero_lt_succ 3), hcount]
    rfl
  case missing =>
    have hcount := (v.withCandidate fv).countOn_other (hnodigit fv d hother)
    rw [v.withCandidate_other hother] at hcount
    rw [State.debounce_stays s p time (d := d) (by rw [v.withCandidate_other hother]; exact hon)
      (by rw [v.withCandidate_other hother, hcount]; exact Nat.succ_lt_succ hrun), v.withCandidate_other hother, hcount]
  case off =>
    have hcount := (v.withCandidate fv).countOn_other (hnodigit fv d hother)
    rw [v.withCandidate_other hother] at hcount
    rw [State.debounce_off s p time (d := d) (by rw [v.withCandidate_other hother]; exact hon)
      (by rw [v.withCandidate_other hother, hcount]; exact Nat.succ_le_succ hrun) rfl, v.withCandidate_other hother, hcount,
      State.digitOnStep_noCandidate _ p time rfl, ← State.giveMark_setVerdict]
    rfl
  case replaced =>
    have hne : FrameVerdict.digit e ≠ .digit d := fun h => hde (FrameVerdict.digit.inj h).symm
    have hcount := (v.withCandidate (.digit e)).countOn_other hne
    refine ⟨fun hrun => ?missing, fun hrun hfour => ?off, fun hrun hfour => ?both⟩
    case missing =>
      rw [State.debounce_stays s p time (fv := .digit e) (d := d) hon (by rw [hcount]; exact Nat.succ_lt_succ hrun), hcount]
      rfl
    case off =>
      rw [State.debounce_off s p time (fv := .digit e) (d := d) hon (by rw [hcount]; exact Nat.succ_le_succ hrun) rfl, hcount,
        State.digitOnStep_short _ p time (d := e) rfl hfour, ← State.giveMark_setVerdict]
      rfl
    case both =>
      rw [State.debounce_off s p time (fv := .digit e) (d := d) hon (by rw [hcount]; exact Nat.succ_le_succ hrun) rfl, hcount,
        State.digitOnStep_on _ p time (d := e) rfl rfl hfour]
      unfold State.giveVerdictMark
      rw [← State.giveMark_setVerdict, hdigit, hfour]
      rfl

/-! ### The tone runs (R168) -/

/-- A run after a verdict: one more of its own kind, and none after any other. -/
def ToneRun.judged (r : ToneRun) (own fv : FrameVerdict) (length : Nat) : ToneRun :=
  if fv = own then { count := min 255 (r.count + 1), fired := r.fired || decide (length ≤ min 255 (r.count + 1)) } else ToneRun.reset

/-- A run that has not fired fires at the trigger length. -/
def ToneRun.fires (r : ToneRun) (length : Nat) : Prop := r.fired = false ∧ length ≤ min 255 (r.count + 1)

/-- A port's verdict state with one of its runs brought up to date. -/
def Verdict.withRun (v : Verdict) (k : RunKind) (fv : FrameVerdict) (length : Nat) : Verdict :=
  v.setToneRun k ((v.toneRun k).judged k.counts fv length)

section Runs

variable (s : State) (p : LineNo) (time : Word) (w : Verdict) {k : RunKind} {fv : FrameVerdict}

theorem State.updateRun_silent (h : ¬ (fv = k.counts ∧ (w.toneRun k).fires (s.triggerLength p))) :
    (s.setVerdict p w).updateRun p k time fv = s.setVerdict p (w.withRun k fv (s.triggerLength p)) := by
  unfold State.updateRun Verdict.withRun ToneRun.judged
  simp only [State.setVerdict_verdict_get, State.setVerdict_setVerdict]
  by_cases hfv : fv = k.counts
  · have hfires : ¬ ((w.toneRun k).fired = false ∧ s.triggerLength p ≤ min 255 ((w.toneRun k).count + 1)) := fun hf => h ⟨hfv, hf⟩
    rw [if_pos hfv, if_pos hfv]
    refine (if_neg hfires).trans (congrArg (fun f => s.setVerdict p (w.setToneRun k { count := _, fired := f })) ?_)
    cases hf : (w.toneRun k).fired with
    | true => rfl
    | false => exact ((decide_eq_false fun hle => hfires ⟨hf, hle⟩)).symm
  · rw [if_neg hfv, if_neg hfv]

theorem State.updateRun_fires (hfv : fv = k.counts) (h : (w.toneRun k).fires (s.triggerLength p)) :
    (s.setVerdict p w).updateRun p k time fv =
      (s.setVerdict p { w.withRun k fv (s.triggerLength p) with triggers := w.triggers ++ [k.cause] }).giveVerdictMark k.mark p time
        k.direction (BitVec.ofNat 32 (s.triggerLength p)) := by
  obtain ⟨hfired, hle⟩ := h
  have hjudged : (w.toneRun k).judged k.counts fv (s.triggerLength p) = { count := min 255 ((w.toneRun k).count + 1), fired := true } := by
    unfold ToneRun.judged
    rw [if_pos hfv, decide_eq_true hle, Bool.or_true]
  unfold State.updateRun Verdict.withRun
  simp only [State.setVerdict_verdict_get, State.setVerdict_setVerdict]
  rw [if_pos hfv, hjudged]
  exact if_pos ⟨hfired, hle⟩

end Runs

/-- The two runs of a side: of different verdicts, each its own. -/
theorem Verdict.toneRun_withRun (w : Verdict) {a b : RunKind} (h : a.counts ≠ b.counts) (fv : FrameVerdict) (length : Nat)
    (triggers : List TriggerCause) :
    ({ w.withRun a fv length with triggers := triggers } : Verdict).toneRun b = w.toneRun b := by
  cases a <;> cases b <;> simp [RunKind.counts, Verdict.withRun, Verdict.setToneRun, Verdict.toneRun] at h ⊢

theorem Verdict.withRun_triggers (w : Verdict) (k : RunKind) (fv : FrameVerdict) (length : Nat) (ts : List TriggerCause) :
    ({ w with triggers := ts } : Verdict).withRun k fv length = { w.withRun k fv length with triggers := ts } := by
  cases k <;> rfl

theorem Verdict.triggers_withRun (w : Verdict) (k : RunKind) (fv : FrameVerdict) (length : Nat) : (w.withRun k fv length).triggers = w.triggers := by
  cases k <;> rfl

section Pair

variable (s : State) (p : LineNo) (time : Word) (w : Verdict) {a b : RunKind} (hab : a.counts ≠ b.counts) {fv : FrameVerdict}
include hab

/-- Neither run of a side fires: both are brought up to date. -/
theorem State.updateRuns_silent (ha : ¬ (fv = a.counts ∧ (w.toneRun a).fires (s.triggerLength p)))
    (hb : ¬ (fv = b.counts ∧ (w.toneRun b).fires (s.triggerLength p))) :
    ((s.setVerdict p w).updateRun p a time fv).updateRun p b time fv =
      s.setVerdict p ((w.withRun a fv (s.triggerLength p)).withRun b fv (s.triggerLength p)) := by
  have hrun : (w.withRun a fv (s.triggerLength p)).toneRun b = w.toneRun b := w.toneRun_withRun hab fv _ _
  rw [State.updateRun_silent s p time w ha, State.updateRun_silent s p time _ (by rw [hrun]; exact hb)]

/-- The first run fires. -/
theorem State.updateRuns_first (hfv : fv = a.counts) (ha : (w.toneRun a).fires (s.triggerLength p)) :
    ((s.setVerdict p w).updateRun p a time fv).updateRun p b time fv =
      (s.setVerdict p { (w.withRun a fv (s.triggerLength p)).withRun b fv (s.triggerLength p) with
        triggers := w.triggers ++ [a.cause] }).giveVerdictMark a.mark p time a.direction (BitVec.ofNat 32 (s.triggerLength p)) := by
  have hlength : ∀ m, (s.giveMark m).triggerLength p = s.triggerLength p := by
    intro m
    unfold State.triggerLength
    rw [State.giveMark_chan]
  rw [State.updateRun_fires s p time w hfv ha]
  unfold State.giveVerdictMark
  rw [State.giveMark_setVerdict, State.updateRun_silent _ p time _ (fun h => hab (hfv.symm.trans h.1)), hlength, ← State.giveMark_setVerdict,
    Verdict.withRun_triggers]

/-- The second run fires. -/
theorem State.updateRuns_second (hfv : fv = b.counts) (hb : (w.toneRun b).fires (s.triggerLength p)) :
    ((s.setVerdict p w).updateRun p a time fv).updateRun p b time fv =
      (s.setVerdict p { (w.withRun a fv (s.triggerLength p)).withRun b fv (s.triggerLength p) with
        triggers := w.triggers ++ [b.cause] }).giveVerdictMark b.mark p time b.direction (BitVec.ofNat 32 (s.triggerLength p)) := by
  have hrun : (w.withRun a fv (s.triggerLength p)).toneRun b = w.toneRun b := w.toneRun_withRun hab fv _ _
  rw [State.updateRun_silent s p time w (fun h => hab (h.1.symm.trans hfv)),
    State.updateRun_fires s p time _ hfv (by rw [hrun]; exact hb), Verdict.triggers_withRun]

/-- Whichever fires, the verdict state gains both runs, and causes alone besides. -/
theorem State.updateRuns_judged : ∃ ts, s.Judged p { (w.withRun a fv (s.triggerLength p)).withRun b fv (s.triggerLength p) with triggers := ts }
    (((s.setVerdict p w).updateRun p a time fv).updateRun p b time fv) := by
  by_cases ha : fv = a.counts ∧ (w.toneRun a).fires (s.triggerLength p)
  · rw [State.updateRuns_first s p time w hab ha.1 ha.2]
    exact ⟨_, s.judged_giveMark p _ _⟩
  · by_cases hb : fv = b.counts ∧ (w.toneRun b).fires (s.triggerLength p)
    · rw [State.updateRuns_second s p time w hab hb.1 hb.2]
      exact ⟨_, s.judged_giveMark p _ _⟩
    · rw [State.updateRuns_silent s p time w hab ha hb]
      exact ⟨_, s.judged_setVerdict p _⟩

end Pair

/-! ### The far frame event (R165) -/

theorem Verdict.followFar_eq (v : Verdict) (f : FarFrame) : v.followFar f = { v with
    farAnswer := if f.afresh = false ∧ v.lastFar = some (f.boundary - 1) then v.farAnswer else ToneRun.reset
    farCalling := if f.afresh = false ∧ v.lastFar = some (f.boundary - 1) then v.farCalling else ToneRun.reset } := by
  unfold Verdict.followFar
  by_cases h : f.afresh = false ∧ v.lastFar = some (f.boundary - 1)
  · rw [if_pos h, if_pos h, if_pos h]
  · rw [if_neg h, if_neg h, if_neg h]

/-- The far frame event of a RUNNING part takes the oldest far frame. -/
theorem exec_farFrame_of_running {s : State} {p : LineNo} {f : FarFrame} {fs : List FarFrame} (hrun : s.clock.running = true)
    (hf : (s.verdict.get p).farFrames = f :: fs) :
    exec (.farFrame p) s = .next ((s.setVerdict p { s.verdict.get p with farFrames := fs }).farFrameStep p f) := by
  show Host.Outcome.next (s.farFrameEvent p) = _
  unfold State.farFrameEvent
  dsimp only
  rw [hrun, if_pos rfl]
  simp only [hf]

/-- A far frame taken: the runs start afresh or go on, follow the verdict, and the boundary is stored. -/
theorem State.farFrameStep_eq (s : State) (p : LineNo) (v : Verdict) (f : FarFrame) :
    (s.setVerdict p v).farFrameStep p f =
      (((s.setVerdict p (v.followFar f)).updateRun p .farAnswer f.sc (farVerdictOf f.samples)).updateRun p .farCalling f.sc
        (farVerdictOf f.samples)).setVerdict p
        { (((s.setVerdict p (v.followFar f)).updateRun p .farAnswer f.sc (farVerdictOf f.samples)).updateRun p .farCalling f.sc
          (farVerdictOf f.samples)).verdict.get p with lastFar := some f.boundary } := by
  unfold State.farFrameStep State.applyFarVerdict
  dsimp only
  rw [State.setVerdict_verdict_get, State.setVerdict_setVerdict]

/-- Settles O51: the runs of the oldest far frame by where it follows, and the one that fires by its verdict. -/
theorem farFrameDrivesTheFarRuns : Obligations.FarFrameDrivesTheFarRuns := by
  unfold Obligations.FarFrameDrivesTheFarRuns
  intro p s f fs hrun hf v fv length zero base after fires counted fired far
  have hab : RunKind.farAnswer.counts ≠ RunKind.farCalling.counts := nofun
  obtain ⟨w, hw⟩ : ∃ w, w = ({ v with farFrames := fs } : Verdict).followFar f := ⟨_, rfl⟩
  have hevent : far = .next ((((s.setVerdict p w).updateRun p .farAnswer f.sc fv).updateRun p .farCalling f.sc fv).setVerdict p
      { (((s.setVerdict p w).updateRun p .farAnswer f.sc fv).updateRun p .farCalling f.sc fv).verdict.get p with
        lastFar := some f.boundary }) := by
    rw [hw]
    exact (exec_farFrame_of_running hrun hf).trans (congrArg Host.Outcome.next (State.farFrameStep_eq s p _ f))
  rw [Verdict.followFar_eq] at hw
  have hanswer : w.farAnswer = base v.farAnswer := by rw [hw]; rfl
  have hcalling : w.farCalling = base v.farCalling := by rw [hw]; rfl
  have hcounted : ∀ ts, ({ (w.withRun .farAnswer fv length).withRun .farCalling fv length with triggers := ts, lastFar := some f.boundary } :
      Verdict) = { counted with triggers := ts } := by
    intro ts
    rw [hw]
    rfl
  have htriggers : w.triggers = v.triggers := by rw [hw]
  refine ⟨fun hfv hfires => ?answer, fun hfv hfires => ?calling, fun hnoAnswer hnoCalling => ?silent⟩
  case answer =>
    rw [hevent, State.updateRuns_first s p f.sc w hab hfv (by rw [show w.toneRun .farAnswer = base v.farAnswer from hanswer]; exact hfires)]
    unfold State.giveVerdictMark
    rw [State.giveMark_verdict, State.setVerdict_verdict_get, ← State.giveMark_setVerdict, State.setVerdict_setVerdict, htriggers]
    exact congrArg (fun x => Host.Outcome.next ((s.setVerdict p x).giveMark _)) (hcounted _)
  case calling =>
    rw [hevent, State.updateRuns_second s p f.sc w hab hfv (by rw [show w.toneRun .farCalling = base v.farCalling from hcalling]; exact hfires)]
    unfold State.giveVerdictMark
    rw [State.giveMark_verdict, State.setVerdict_verdict_get, ← State.giveMark_setVerdict, State.setVerdict_setVerdict, htriggers]
    exact congrArg (fun x => Host.Outcome.next ((s.setVerdict p x).giveMark _)) (hcounted _)
  case silent =>
    rw [hevent, State.updateRuns_silent s p f.sc w hab (by rw [show w.toneRun .farAnswer = base v.farAnswer from hanswer]; exact hnoAnswer)
      (by rw [show w.toneRun .farCalling = base v.farCalling from hcalling]; exact hnoCalling), State.setVerdict_verdict_get, State.setVerdict_setVerdict]
    exact congrArg (fun x => Host.Outcome.next (s.setVerdict p x)) ((hcounted w.triggers).trans (by rw [htriggers]))

/-! ### The line verdict event (R163) -/

/-- The debounce's own fields apart, a verdict state is as it was. -/
def Verdict.SameRuns (v w : Verdict) : Prop :=
  w = { v with candidate := w.candidate, candRun := w.candRun, digitOn := w.digitOn, offRun := w.offRun, onCount := w.onCount }

theorem Verdict.SameRuns.trans {v w x : Verdict} (h : v.SameRuns w) (g : w.SameRuns x) : v.SameRuns x := by
  unfold Verdict.SameRuns at h g
  rw [h] at g
  exact g

theorem Verdict.SameRuns.fields {v w : Verdict} (h : v.SameRuns w) : w.lineAnswer = v.lineAnswer ∧ w.lineCalling = v.lineCalling ∧
    w.farAnswer = v.farAnswer ∧ w.farCalling = v.farCalling ∧ w.farFrames = v.farFrames ∧ w.lastFar = v.lastFar ∧
    w.reopened = v.reopened ∧ w.triggers = v.triggers := by
  unfold Verdict.SameRuns at h
  rw [h]
  exact ⟨rfl, rfl, rfl, rfl, rfl, rfl, rfl, rfl⟩

theorem Verdict.sameRuns_withCandidate (v : Verdict) (fv : FrameVerdict) : v.SameRuns (v.withCandidate fv) := by
  cases fv <;> rfl

section Line

variable (s : State) (p : LineNo) (time : Word)

theorem State.digitOffStep_judged (w : Verdict) : ∃ w', s.Judged p w' ((s.setVerdict p w).digitOffStep p time) ∧ w.SameRuns w' := by
  cases hon : w.digitOn with
  | none =>
    rw [State.digitOffStep_none s p time hon]
    exact ⟨w, s.judged_setVerdict p w, rfl⟩
  | some d =>
    rcases lt_or_ge w.offRun 4 with hrun | hrun
    · rw [State.digitOffStep_stays s p time hon hrun]
      exact ⟨w, s.judged_setVerdict p w, rfl⟩
    · rw [State.digitOffStep_off s p time hon hrun]
      exact ⟨_, s.judged_giveMark p _ _, rfl⟩

theorem State.digitOnStep_judged (w : Verdict) : ∃ w', s.Judged p w' ((s.setVerdict p w).digitOnStep p time) ∧ w.SameRuns w' := by
  cases hon : w.digitOn with
  | some d =>
    rw [State.digitOnStep_some s p time hon]
    exact ⟨w, s.judged_setVerdict p w, rfl⟩
  | none =>
    cases hc : w.candidate with
    | none =>
      rw [State.digitOnStep_noCandidate s p time hc]
      exact ⟨w, s.judged_setVerdict p w, rfl⟩
    | some d =>
      by_cases hrun : w.candRun = 4
      · rw [State.digitOnStep_on s p time hon hc hrun]
        exact ⟨_, s.judged_giveMark p _ _, rfl⟩
      · rw [State.digitOnStep_short s p time hc hrun]
        exact ⟨w, s.judged_setVerdict p w, rfl⟩

/-- The debounce touches its own fields of its port's verdict state, and gives marks. -/
theorem State.debounce_judged (fv : FrameVerdict) :
    ∃ w, s.Judged p w (s.debounce p time fv) ∧ (s.verdict.get p).SameRuns w := by
  obtain ⟨v, hv, hsame⟩ : ∃ v, s.debounce p time fv = ((s.setVerdict p v).digitOffStep p time).digitOnStep p time ∧
      (s.verdict.get p).SameRuns v := by
    have hcand := (s.verdict.get p).sameRuns_withCandidate fv
    cases hon : ((s.verdict.get p).withCandidate fv).digitOn with
    | none =>
      refine ⟨_, ?_, hcand⟩
      rw [State.debounce_none s p time hon, State.digitOffStep_none s p time hon]
    | some d => exact ⟨_, State.debounce_some s p time hon, hcand.trans rfl⟩
  obtain ⟨w, hoff, hw⟩ := s.digitOffStep_judged p time v
  obtain ⟨x, hon, hx⟩ := State.digitOnStep_judged ((s.setVerdict p v).digitOffStep p time) p time w
  have hself := State.setVerdict_get_self ((s.setVerdict p v).digitOffStep p time) p
  rw [hoff.fields.1] at hself
  rw [hself] at hon
  rw [hv]
  exact ⟨x, hoff.trans hon, (hsame.trans hw).trans hx⟩

end Line

theorem exec_lineVerdict_of_canTake {s : State} {p : LineNo} (h : s.canTake (.verdict p) = true) :
    exec (.lineVerdict p) s = .next ((s.undue (.verdict p)).lineVerdictStep p) :=
  congrArg Host.Outcome.next (s.takeEvent_taken (.verdict p) _ h)

/-- Settles O48: a port that is not OFFHOOK is cleared, and on one that is the two line runs follow the debounce. -/
theorem lineVerdictDrivesTheLineRuns : Obligations.LineVerdictDrivesTheLineRuns := by
  unfold Obligations.LineVerdictDrivesTheLineRuns
  intro p s ht v u fv length zero after fires line
  refine ⟨fun hstate => (exec_lineVerdict_of_canTake ht).trans (congrArg Host.Outcome.next (if_neg hstate)), fun hstate => ?_⟩
  have hab : RunKind.lineAnswer.counts ≠ RunKind.lineCalling.counts := nofun
  obtain ⟨d, hd⟩ : ∃ d, d = u.debounce p s.clock.boundarySc fv := ⟨_, rfl⟩
  obtain ⟨w, hjudged, hsame⟩ := u.debounce_judged p s.clock.boundarySc fv
  rw [← hd] at hjudged
  obtain ⟨hw, -, hchan, -⟩ := hjudged.fields
  have hself := State.setVerdict_get_self d p
  rw [hw] at hself
  have hevent : line = .next (((d.setVerdict p w).updateRun p .lineAnswer s.clock.boundarySc fv).updateRun p .lineCalling
      s.clock.boundarySc fv) := by
    rw [hself, hd]
    exact (exec_lineVerdict_of_canTake ht).trans (congrArg Host.Outcome.next (if_pos hstate))
  have hlength : d.triggerLength p = length := by
    unfold State.triggerLength
    rw [hchan]
    rfl
  obtain ⟨hanswer, hcalling, hfarAnswer, hfarCalling, hfrom, hlast, hreopened, htriggers⟩ := hsame.fields
  replace hanswer : w.toneRun .lineAnswer = v.lineAnswer := hanswer
  replace hcalling : w.toneRun .lineCalling = v.lineCalling := hcalling
  replace htriggers : w.triggers = v.triggers := htriggers
  have hcounted : (w.withRun .lineAnswer fv length).withRun .lineCalling fv length =
      { w with lineAnswer := after v.lineAnswer .answerTone, lineCalling := after v.lineCalling .callingTone } := by
    rw [← hanswer, ← hcalling]
    rfl
  refine ⟨?_, ?_⟩
  · rw [← hd]
    intro d' counted fired
    have hd' : counted = d.setVerdict p ((w.withRun .lineAnswer fv length).withRun .lineCalling fv length) := by
      rw [hcounted, ← hw]
    have hfired : ∀ kind, fired kind = (d.setVerdict p
        { (w.withRun .lineAnswer fv length).withRun .lineCalling fv length with triggers := w.triggers ++ [.toneLine] }).giveMark
          { kind := kind, line := BitVec.ofNat 8 p.val, detail16 := 0, time := s.clock.boundarySc, detail32 := BitVec.ofNat 32 length } := by
      intro kind
      show State.giveMark (State.setVerdict counted p { counted.verdict.get p with triggers := v.triggers ++ [.toneLine] }) _ = _
      rw [hd', State.setVerdict_verdict_get, State.setVerdict_setVerdict, htriggers]
    refine ⟨fun hfv hfires => ?answer, fun hfv hfires => ?calling, fun hnoAnswer hnoCalling => ?silent⟩
    case answer =>
      rw [hevent, State.updateRuns_first d p _ w hab hfv (by rw [hanswer, hlength]; exact hfires), hfired, hlength]
      rfl
    case calling =>
      rw [hevent, State.updateRuns_second d p _ w hab hfv (by rw [hcalling, hlength]; exact hfires), hfired, hlength]
      rfl
    case silent =>
      rw [hevent, State.updateRuns_silent d p _ w hab (by rw [hanswer, hlength]; exact hnoAnswer)
        (by rw [hcalling, hlength]; exact hnoCalling), hd', hlength]
  · obtain ⟨ts, hruns⟩ := State.updateRuns_judged d p s.clock.boundarySc w hab (fv := fv)
    obtain ⟨hget, hothers, hkept⟩ := (hjudged.trans hruns).fields
    rw [hlength, hcounted] at hget
    refine ⟨_, hevent, ?_, ?_, ?_, ?_, ?_, ?_, ?_, hothers, hkept⟩ <;> rw [hget]
    · exact hfarAnswer
    · exact hfarCalling
    · exact hfrom
    · exact hlast
    · exact hreopened

end Sys2Proof.Machine

/-! ## The mark writer: where a mark goes, and the writer's frame boundary (R176 to R180) -/

namespace Sys2Proof.Machine

/-! ### A sheet opened (R177) -/

section Opened

variable {s : State} {c : CellNo} {rest : List CellNo}

/-- The part with a sheet just opened in a spare cell, and nothing written in it. -/
def State.sheetOpened (s : State) (c : CellNo) (rest : List CellNo) : State :=
  { s with
    ex := { s.ex with
      spare := rest
      keeping := tablePut s.ex.keeping c.val { role := .markSheet, clash := ((s.keptAt c.val).map Kept.clash).getD false } }
    marks := { s.marks with sheet := some c, count := 0 } }

theorem State.openSheet_some (h : s.ex.spare = c :: rest) : s.openSheet = some (s.sheetOpened c rest) := by
  unfold State.openSheet State.claimMarks State.claim
  simp only [h, if_pos (Nat.zero_lt_succ _)]
  rfl

theorem State.openSheet_none (h : s.ex.spare = []) : s.openSheet = none := by
  unfold State.openSheet State.claimMarks State.claim
  simp only [h]

end Opened

/-! ### Records of an open sheet (R176) -/

/-- A part that differs from another, whose sheet holds nothing yet, by the records of the open sheet and by the mark writer alone. -/
structure State.Recorded (u : State) (c : CellNo) (all : List Mark) (t : State) : Prop where
  rest : t = { u with mem := t.mem, marks := t.marks }
  wf : t.mem.wf = true
  sheet : t.marks.sheet = some c
  count : t.marks.count = all.length
  records : ∀ j k i, all[j]? = some k → i < 16 → t.cellByte c (32 + 16 * j + i) = k.record.getD i 0
  others : ∀ a, (∀ i, i < 16 * all.length → a ≠ cellAddr c (32 + i)) → t.byteAt a = u.byteAt a

section Recorded

variable {u t : State} {c : CellNo} {all : List Mark}

theorem State.recorded_nil (hwf : u.mem.wf = true) (hsheet : u.marks.sheet = some c) (hcount : u.marks.count = 0) : u.Recorded c [] u where
  rest := rfl
  wf := hwf
  sheet := hsheet
  count := hcount
  records := nofun
  others := fun _ _ => rfl

/-- The queue and the lost count are no part of the sheet. -/
theorem State.Recorded.setMarks (h : u.Recorded c all t) {w : MarkWriter} (hsheet : w.sheet = t.marks.sheet) (hcount : w.count = t.marks.count) :
    u.Recorded c all { t with marks := w } where
  rest := by rw [h.rest]
  wf := h.wf
  sheet := hsheet.trans h.sheet
  count := hcount.trans h.count
  records := h.records
  others := h.others

/-- The next record of a sheet with room. -/
theorem State.Recorded.recordMark (h : u.Recorded c all t) (hroom : all.length < 27) (m : Mark) : u.Recorded c (all ++ [m]) (t.recordMark c m) where
  rest := by
    unfold State.recordMark
    rw [h.rest]
    rfl
  wf := Memory.wf_writeList _ _ _ h.wf
  sheet := h.sheet
  count := by
    rw [List.length_append]
    exact congrArg (· + 1) h.count
  records := by
    intro j k i hj hi
    have hc := c.isLt
    have hlen := m.record_length
    show (Memory.writeList t.mem (cellAddr c (32 + 16 * t.marks.count)) m.record).read (cellAddr c (32 + 16 * j + i)) = _
    rw [h.count]
    rcases lt_or_ge j all.length with hlt | hge
    · rw [List.getElem?_append_left hlt] at hj
      rw [Memory.read_writeList_outside _ _ _ _ h.wf (Or.inl (by unfold cellAddr; omega))]
      exact h.records j k i hj hi
    · obtain ⟨hlast, rfl⟩ : j = all.length ∧ m = k := by
        rw [List.getElem?_append_right hge] at hj
        obtain ⟨hzero, hk⟩ := List.getElem?_eq_some_iff.mp hj
        simp only [List.length_singleton] at hzero
        exact ⟨by omega, by simpa using hk⟩
      have hinside := Memory.read_writeList_inside m.record t.mem (cellAddr c (32 + 16 * all.length)) i h.wf (by omega)
        (by unfold cellAddr; omega)
      rw [hlast, show cellAddr c (32 + 16 * all.length + i) = cellAddr c (32 + 16 * all.length) + i by unfold cellAddr; omega, hinside,
        List.getD_eq_getElem]
  others := by
    intro a ha
    rw [List.length_append, List.length_singleton] at ha
    show (Memory.writeList t.mem (cellAddr c (32 + 16 * t.marks.count)) m.record).read a = _
    have hout : a < cellAddr c (32 + 16 * t.marks.count) ∨ cellAddr c (32 + 16 * t.marks.count) + m.record.length ≤ a := by
      rw [m.record_length, h.count]
      by_contra hin
      refine ha (a - cellAddr c 32) ?_ ?_ <;> unfold cellAddr at * <;> omega
    rw [Memory.read_writeList_outside _ _ _ _ h.wf hout]
    exact h.others a fun i hi => ha i (by omega)

theorem State.Recorded.writeMark (h : u.Recorded c all t) (hroom : all.length < 27) (m : Mark) : t.writeMark m = t.recordMark c m := by
  rw [State.writeMark_some m h.sheet, if_neg (by rw [h.count]; omega)]

/-- More records of a sheet with room for them all. -/
theorem State.Recorded.foldl (ms : List Mark) : ∀ {all : List Mark} {t : State}, u.Recorded c all t → all.length + ms.length ≤ 27 →
    u.Recorded c (all ++ ms) (ms.foldl State.writeMark t) ∧
      (ms.foldl State.writeMark t).marks = { t.marks with count := t.marks.count + ms.length } := by
  induction ms with
  | nil => exact fun h _ => ⟨by simpa using h, rfl⟩
  | cons m ms ih =>
    intro all t h hroom
    rw [List.length_cons] at hroom
    have hnext := h.recordMark (by omega) m
    obtain ⟨hall, hmarks⟩ := ih hnext (by rw [List.length_append, List.length_singleton]; omega)
    rw [List.foldl_cons, h.writeMark (by omega) m]
    refine ⟨by simpa using hall, hmarks.trans ?_⟩
    rw [List.length_cons]
    show ({ t.marks with count := t.marks.count + 1 + ms.length } : MarkWriter) = _
    rw [show t.marks.count + 1 + ms.length = t.marks.count + (ms.length + 1) by omega]

end Recorded

/-! ### A sheet just claimed (R178) -/

/-- The MARKS_LOST mark, if marks were lost. -/
def State.lostMarks (s : State) : List Mark := if 0 < s.marks.lost then [s.marksLost] else []

theorem State.lostMarks_length_le (s : State) : s.lostMarks.length ≤ 1 := by
  unfold State.lostMarks
  split <;> simp

/-- A sheet just opened receives the MARKS_LOST mark and then the queue, which is empty from then on. -/
theorem State.fillSheet_recorded {u : State} {c : CellNo} (hwf : u.mem.wf = true) (hsheet : u.marks.sheet = some c)
    (hcount : u.marks.count = 0) (hqueue : u.marks.queue.length ≤ 16) :
    u.Recorded c (u.lostMarks ++ u.marks.queue) u.fillSheet ∧
      u.fillSheet.marks = { sheet := some c, count := (u.lostMarks ++ u.marks.queue).length, queue := [], lost := 0 } := by
  have hnil := State.recorded_nil hwf hsheet hcount
  obtain ⟨t, hlost, hmarks, hfill⟩ : ∃ t, u.Recorded c u.lostMarks t ∧
      t.marks = { u.marks with count := u.lostMarks.length, queue := [], lost := 0 } ∧
      u.fillSheet = u.marks.queue.foldl State.writeMark t := by
    unfold State.lostMarks State.fillSheet
    dsimp only
    by_cases h : 0 < u.marks.lost
    · rw [if_pos h, if_pos h, hnil.writeMark (Nat.zero_lt_succ _)]
      refine ⟨_, ((hnil.recordMark (Nat.zero_lt_succ _) u.marksLost).setMarks (w := { u.marks with count := 1, queue := [], lost := 0 })
        rfl (congrArg (· + 1) hcount.symm)), rfl, ?_⟩
      unfold State.recordMark
      rw [hcount]
    · rw [if_neg h, if_neg h]
      refine ⟨_, hnil.setMarks (w := { u.marks with queue := [] }) rfl rfl, ?_, rfl⟩
      dsimp only
      rw [hcount, Nat.eq_zero_of_not_pos h]
      rfl
  have hroom := u.lostMarks_length_le
  obtain ⟨hall, hcounted⟩ := State.Recorded.foldl u.marks.queue hlost (by omega)
  rw [hfill]
  refine ⟨hall, ?_⟩
  rw [hcounted, hmarks, List.length_append]
  dsimp only
  rw [hsheet]

/-- What a sheet filled with marks leaves of the part, by the spare cell it was opened in. -/
theorem State.Recorded.opened {s t : State} {c : CellNo} {rest : List CellNo} {all : List Mark}
    (h : (s.sheetOpened c rest).Recorded c all t) (hmarks : t.marks = { sheet := some c, count := all.length, queue := [], lost := 0 }) :
    t = { s with
      mem := t.mem
      marks := { sheet := some c, count := all.length, queue := [], lost := 0 }
      ex := { s.ex with
        spare := rest
        keeping := tablePut s.ex.keeping c.val { role := .markSheet, clash := ((s.keptAt c.val).map Kept.clash).getD false } } } ∧
    t.mem.wf = true ∧ (∀ j k i, all[j]? = some k → i < 16 → t.cellByte c (32 + 16 * j + i) = k.record.getD i 0) ∧
    ∀ a, (∀ i, i < 16 * all.length → a ≠ cellAddr c (32 + i)) → t.byteAt a = s.byteAt a := by
  refine ⟨?_, h.wf, h.records, h.others⟩
  rw [← hmarks]
  exact h.rest

/-! ### Marks given, by where they go -/

section Given

variable {s : State} (m : Mark)

theorem State.giveMark_of_sheet {c : CellNo} (h : s.marks.sheet = some c) : s.giveMark m = s.writeMark m := by
  unfold State.giveMark
  simp only [h]

theorem State.giveMark_of_spare {c : CellNo} {rest : List CellNo} (h : s.marks.sheet = none) (hs : s.ex.spare = c :: rest) :
    s.giveMark m = (s.sheetOpened c rest).fillSheet.writeMark m := by
  unfold State.giveMark
  simp only [h, State.openSheet_some hs]

theorem State.giveMark_of_none (h : s.marks.sheet = none) (hs : s.ex.spare = []) :
    s.giveMark m = if s.marks.queue.length < 16 then { s with marks := { s.marks with queue := s.marks.queue ++ [m] } }
      else { s with marks := { s.marks with lost := min 65535 (s.marks.lost + 1) } } := by
  unfold State.giveMark
  simp only [h, State.openSheet_none hs]

end Given

section Boundary

variable {s : State}

theorem State.markBoundary_idle (h : s.marks.sheet = none) (hq : s.marks.queue = [] ∨ s.ex.spare = []) : s.markBoundary = s := by
  unfold State.markBoundary
  dsimp only
  rw [State.closeSheet_none h]
  rcases hq with hq | hs
  · rw [hq]
    rfl
  · simp only [State.openSheet_none hs, ite_self]

theorem State.markBoundary_closes (hq : s.marks.queue = []) : s.markBoundary = s.closeSheet := by
  have hkeeps : s.closeSheet.marks.queue = s.marks.queue := by
    cases hc : s.marks.sheet with
    | none => rw [State.closeSheet_none hc]
    | some c => rw [State.closeSheet_some hc]
  unfold State.markBoundary
  dsimp only
  rw [hkeeps, hq]
  rfl

theorem State.markBoundary_retries {c : CellNo} {rest : List CellNo} (h : s.marks.sheet = none) (hq : s.marks.queue ≠ [])
    (hs : s.ex.spare = c :: rest) : s.markBoundary = (s.sheetOpened c rest).fillSheet := by
  unfold State.markBoundary
  dsimp only
  rw [State.closeSheet_none h, if_neg (by simpa using hq)]
  simp only [State.openSheet_some hs]

theorem exec_markWriterBoundary_of_canTake (h : s.canTake .markWriter = true) :
    exec .markWriterBoundary s = .next (s.undue .markWriter).markBoundary := congrArg Host.Outcome.next (s.takeEvent_taken .markWriter _ h)

end Boundary

/-- Settles O52: a mark by the open sheet, the stock and the queue, and the boundary by what is open and what is queued. -/
theorem markWriterPlacesEveryMark : Obligations.MarkWriterPlacesEveryMark := by
  unfold Obligations.MarkWriterPlacesEveryMark
  intro bytes lost opened
  have hlost : ∀ s : State, lost s = s.lostMarks := fun s => rfl
  refine ⟨fun s m => ?given, rfl, fun s => rfl, fun s ht => ?boundary⟩
  case given =>
    intro w record
    refine ⟨fun c hsheet hcount => ?joins, fun c hsheet hcount => ?fills, fun hsheet hspare hqueue => ?queues,
      fun hsheet hspare hqueue => ?isLost, fun c rest hsheet hspare hqueue hwf => ?opens⟩
    case joins =>
      rw [State.giveMark_of_sheet m hsheet, State.writeMark_some m hsheet, if_neg (Nat.not_le.mpr hcount)]
      rfl
    case fills =>
      have hrecorded : (s.recordMark c m).marks.sheet = some c := hsheet
      rw [State.giveMark_of_sheet m hsheet, State.writeMark_some m hsheet, if_pos hcount.ge, State.closeSheet_some hrecorded]
      have hplace : s.recordMark c m = { s.putCell c 464 m.record with marks := { s.marks with count := 28 } } := by
        unfold State.recordMark
        rw [show s.marks.count = 27 from hcount]
      have hheader : byteOf 28 = 28 := rfl
      rw [hplace]
      dsimp only
      rw [hheader, show m.record = record from rfl]
      simp only [State.handOver, State.putCell]
      rfl
    case queues => exact (State.giveMark_of_none m hsheet hspare).trans (if_pos hqueue)
    case isLost => exact (State.giveMark_of_none m hsheet hspare).trans (if_neg (Nat.not_lt.mpr hqueue))
    case opens =>
      obtain ⟨hfilled, hmarks⟩ := State.fillSheet_recorded (u := s.sheetOpened c rest) (c := c) hwf rfl rfl hqueue
      have hroom := (s.sheetOpened c rest).lostMarks_length_le
      have hlength : ((s.sheetOpened c rest).lostMarks ++ (s.sheetOpened c rest).marks.queue).length < 27 := by
        rw [List.length_append]
        have hqueue' : (s.sheetOpened c rest).marks.queue.length ≤ 16 := hqueue
        omega
      rw [State.giveMark_of_spare m hsheet hspare, hfilled.writeMark hlength m]
      refine (hfilled.recordMark hlength m).opened ?_
      unfold State.recordMark
      rw [hmarks, List.length_append (bs := [m])]
      rfl
  case boundary =>
    intro w u
    have hevent := exec_markWriterBoundary_of_canTake ht
    refine ⟨fun hsheet hidle => ?idle, fun c hsheet hqueue => ?closes, fun c rest hsheet hqueue hlen hspare hwf => ?retries⟩
    case idle => exact hevent.trans (congrArg Host.Outcome.next (State.markBoundary_idle (s := u) hsheet hidle))
    case closes =>
      rw [hevent, State.markBoundary_closes (s := s.undue .markWriter) hqueue, State.closeSheet_some (s := s.undue .markWriter) hsheet]
      rfl
    case retries =>
      obtain ⟨hfilled, hmarks⟩ := State.fillSheet_recorded (u := u.sheetOpened c rest) (c := c) hwf rfl rfl hlen
      refine ⟨_, hevent.trans (congrArg Host.Outcome.next (State.markBoundary_retries (s := u) hsheet hqueue hspare)), ?_⟩
      exact hfilled.opened hmarks

end Sys2Proof.Machine

/-! ## The sample period (R44, R45, R115, R127) -/

namespace Sys2Proof.Machine

/-! ### The clock moves on, by whether it reaches a scan instant or a point of the grid -/

section Clock

variable (s : State)

/-- Whether the sample period from here reaches a scan instant (R115). -/
def State.reachesScan (s : State) : Prop := (s.clock.sc + 1).toNat % 8 = 0

/-- Whether the sample period from here reaches a point of the frame grid (R45). -/
def State.reachesPoint (s : State) : Prop := 79 ≤ s.clock.phase

theorem State.advanceClock_of_neither (hs : ¬ s.reachesScan) (hp : ¬ s.reachesPoint) : s.advanceClock = s.countSample := by
  have hphase : ¬ 80 ≤ s.clock.phase + 1 := fun h => hp (Nat.le_of_succ_le_succ h)
  unfold State.advanceClock
  dsimp only
  rw [if_neg (show ¬ s.countSample.clock.sc.toNat % 8 = 0 from hs), if_neg (show ¬ 80 ≤ s.countSample.clock.phase from hphase)]

theorem State.advanceClock_of_scan (hs : s.reachesScan) (hp : ¬ s.reachesPoint) : s.advanceClock = s.countSample.reachScan := by
  have hphase : ¬ 80 ≤ s.clock.phase + 1 := fun h => hp (Nat.le_of_succ_le_succ h)
  unfold State.advanceClock
  dsimp only
  rw [if_pos (show s.countSample.clock.sc.toNat % 8 = 0 from hs), if_neg (show ¬ 80 ≤ s.countSample.reachScan.clock.phase from hphase)]

theorem State.advanceClock_of_point (hs : ¬ s.reachesScan) (hp : s.reachesPoint) : s.advanceClock = s.countSample.reachBoundary := by
  have hphase : 80 ≤ s.clock.phase + 1 := Nat.succ_le_succ hp
  unfold State.advanceClock
  dsimp only
  rw [if_neg (show ¬ s.countSample.clock.sc.toNat % 8 = 0 from hs), if_pos (show 80 ≤ s.countSample.clock.phase from hphase)]

theorem State.advanceClock_of_both (hs : s.reachesScan) (hp : s.reachesPoint) : s.advanceClock = s.countSample.reachScan.reachBoundary := by
  have hphase : 80 ≤ s.clock.phase + 1 := Nat.succ_le_succ hp
  unfold State.advanceClock
  dsimp only
  rw [if_pos (show s.countSample.clock.sc.toNat % 8 = 0 from hs), if_pos (show 80 ≤ s.countSample.reachScan.clock.phase from hphase)]

/-- The drive of a ring context counts, and its run stays. -/
theorem Ring.driveStep_run (g : Ring) : g.driveStep.run = g.run := by
  unfold Ring.driveStep
  split <;> rfl

theorem State.hasRun_reachScan (p : LineNo) : s.reachScan.hasRun p = s.hasRun p := by
  unfold State.hasRun
  show (((s.ring.mapIdx fun _ (r : Ring) => r.driveStep).get p).run.isSome || (s.tone.get p).run.isSome) = _
  rw [Four.get_mapIdx, Ring.driveStep_run]

theorem State.hasRun_iff (p : LineNo) : s.hasRun p = true ↔ (s.ring.get p).run ≠ none ∨ (s.tone.get p).run ≠ none := by
  simp [State.hasRun, Option.isSome_iff_ne_none]

theorem State.advanceClock_clock : s.advanceClock.clock = { s.clock with
    sc := s.clock.sc + 1, phase := if 79 ≤ s.clock.phase then 0 else s.clock.phase + 1
    boundaries := if 79 ≤ s.clock.phase then s.clock.boundaries + 1 else s.clock.boundaries
    boundarySc := if 79 ≤ s.clock.phase then s.clock.sc + 1 else s.clock.boundarySc } := by
  by_cases hp : 79 ≤ s.clock.phase
  · rw [if_pos hp, if_pos hp, if_pos hp]
    by_cases hs : s.reachesScan
    · rw [s.advanceClock_of_both hs hp]
      rfl
    · rw [s.advanceClock_of_point hs hp]
      rfl
  · rw [if_neg hp, if_neg hp, if_neg hp]
    by_cases hs : s.reachesScan
    · rw [s.advanceClock_of_scan hs hp]
      rfl
    · rw [s.advanceClock_of_neither hs hp]
      rfl

/-- What falls due at a scan instant. -/
theorem State.advanceClock_scan (hs : s.reachesScan) :
    s.advanceClock.due.sweep = true ∧ (∀ p, s.advanceClock.due.scan.get p = true ∧ s.advanceClock.due.timer.get p = true) ∧
      s.advanceClock.ring = s.ring.mapIdx fun _ r => r.driveStep := by
  by_cases hp : s.reachesPoint
  · rw [s.advanceClock_of_both hs hp]
    exact ⟨rfl, fun p => ⟨Four.get_all _ _, Four.get_all _ _⟩, rfl⟩
  · rw [s.advanceClock_of_scan hs hp]
    exact ⟨rfl, fun p => ⟨Four.get_all _ _, Four.get_all _ _⟩, rfl⟩

theorem State.advanceClock_noScan (hs : ¬ s.reachesScan) :
    s.advanceClock.due.sweep = s.due.sweep ∧ s.advanceClock.due.scan = s.due.scan ∧ s.advanceClock.due.timer = s.due.timer ∧
      s.advanceClock.ring = s.ring := by
  by_cases hp : s.reachesPoint
  · rw [s.advanceClock_of_point hs hp]
    exact ⟨rfl, rfl, rfl, rfl⟩
  · rw [s.advanceClock_of_neither hs hp]
    exact ⟨rfl, rfl, rfl, rfl⟩

/-- What falls due at a point of the frame grid, and the frame that each port latches there. -/
theorem State.advanceClock_point (hp : s.reachesPoint) : s.advanceClock.due.markWriter = true ∧
    (∀ p, s.advanceClock.due.frame.get p = true ∧ s.advanceClock.due.capture.get p = true ∧ s.advanceClock.due.verdict.get p = true ∧
      s.advanceClock.due.tick.get p = s.hasRun p) ∧
    ∀ p, s.advanceClock.port.get p =
      { s.port.get p with lineFrame := ((s.port.get p).lineBuf.take 80).reverse, lineBuf := [] } := by
  by_cases hs : s.reachesScan
  · rw [s.advanceClock_of_both hs hp]
    refine ⟨rfl, fun p => ⟨Four.get_all _ _, Four.get_all _ _, Four.get_all _ _, ?_⟩, fun p => Four.get_mapIdx _ _ _⟩
    exact (Four.get_mapIdx _ _ _).trans (s.countSample.hasRun_reachScan p)
  · rw [s.advanceClock_of_point hs hp]
    exact ⟨rfl, fun p => ⟨Four.get_all _ _, Four.get_all _ _, Four.get_all _ _, Four.get_mapIdx _ _ _⟩, fun p => Four.get_mapIdx _ _ _⟩

theorem State.advanceClock_noPoint (hp : ¬ s.reachesPoint) : s.advanceClock.due.markWriter = s.due.markWriter ∧
    s.advanceClock.due.frame = s.due.frame ∧ s.advanceClock.due.capture = s.due.capture ∧ s.advanceClock.due.verdict = s.due.verdict ∧
    s.advanceClock.due.tick = s.due.tick ∧ s.advanceClock.port = s.port := by
  by_cases hs : s.reachesScan
  · rw [s.advanceClock_of_scan hs hp]
    exact ⟨rfl, rfl, rfl, rfl, rfl, rfl⟩
  · rw [s.advanceClock_of_neither hs hp]
    exact ⟨rfl, rfl, rfl, rfl, rfl, rfl⟩

/-- What the clock leaves as it is. -/
theorem State.advanceClock_rest : s.advanceClock.ident = s.ident ∧ s.advanceClock.tone = s.tone ∧ s.advanceClock.bus = s.bus ∧
    s.advanceClock.arb = s.arb ∧ s.advanceClock.verdict = s.verdict ∧ s.advanceClock.pending = s.pending := by
  unfold State.advanceClock
  dsimp only
  split <;> split <;> exact ⟨rfl, rfl, rfl, rfl, rfl, rfl⟩

end Clock

/-! ### What waits, and what a port sends -/

theorem State.quiet_iff (s : State) : s.quiet = true ↔ s.due = Due.reset ∧
    ∀ p, (s.verdict.get p).farFrames = [] ∧ (s.verdict.get p).triggers = [] ∧
      ¬ ((s.ring.get p).sub = .burst ∧ (s.ring.get p).freq + 1 ≤ (s.ring.get p).drive) := by
  have htoggles : ∀ p, s.togglesNow p = true ↔ (s.ring.get p).sub = .burst ∧ (s.ring.get p).freq + 1 ≤ (s.ring.get p).drive := by
    simp [State.togglesNow]
  unfold State.quiet
  rw [Bool.and_eq_true, beq_iff_eq, List.all_eq_true]
  refine and_congr_right fun _ => ⟨fun h p => ?_, fun h p _ => ?_⟩
  · have hp := h p (List.mem_finRange p)
    rw [Bool.and_eq_true, Bool.and_eq_true, List.isEmpty_iff, List.isEmpty_iff, Bool.not_eq_true', Bool.eq_false_iff, ne_eq, htoggles] at hp
    exact ⟨hp.1.1, hp.1.2, hp.2⟩
  · rw [Bool.and_eq_true, Bool.and_eq_true, List.isEmpty_iff, List.isEmpty_iff, Bool.not_eq_true', Bool.eq_false_iff, ne_eq, htoggles]
    obtain ⟨hframes, htriggers, hdrive⟩ := h p
    exact ⟨⟨hframes, htriggers⟩, hdrive⟩

/-- The first sample that is present: identity, tone, played audio or silence (R127). -/
theorem State.outputSample_eq (s : State) (p : LineNo) :
    s.outputSample p = if (s.ident.get p).status = .sending then sat (sineSample 2048 (s.ident.get p).phase)
      else if (s.tone.get p).running = true then (s.tone.get p).sample
      else if (s.port.get p).state = .offhook ∧ (s.chan.get p).state ≠ .closed ∧ s.due.frame.get p = false then
        (s.port.get p).played.getD s.clock.phase 0
      else 0 := by
  have hplayed : (if (s.port.get p).state = .offhook ∧ (s.chan.get p).state ≠ .closed then s.playedSample p else 0) =
      if (s.port.get p).state = .offhook ∧ (s.chan.get p).state ≠ .closed ∧ s.due.frame.get p = false then
        (s.port.get p).played.getD s.clock.phase 0
      else 0 := by
    unfold State.playedSample
    cases s.due.frame.get p <;> simp
  unfold State.outputSample
  rw [hplayed]
  rfl

/-- Settles O53: the clock by what it reaches, each port's sample by what is present, and a sample period inside a sweep by the same. -/
theorem samplePeriodAdvancesTheClock : Obligations.SamplePeriodAdvancesTheClock := by
  unfold Obligations.SamplePeriodAdvancesTheClock
  refine ⟨fun line s => ?period, fun s => ⟨fun h => ?idle, fun w ws h => ?work, rfl⟩⟩
  case idle =>
    unfold State.sweepWork
    simp only [h]
  case work =>
    unfold State.sweepWork
    simp only [h]
  case period =>
    intro k point scan
    refine ⟨fun hrun => ?halted, fun hrun => ?running, s.quiet_iff, fun h => ?waits, fun hpoint hscan hquiet hrun => ?inside⟩
    case halted => exact congrArg Host.Outcome.next (if_neg (Bool.eq_false_iff.mp hrun))
    case waits =>
      refine if_pos ?_
      rcases h with h | h | h
      · exact Or.inr (Or.inr h)
      · exact Or.inr (Or.inl h)
      · exact Or.inl h
    case inside =>
      have hpass : s.passSample line = (s.lineSamples line).countSample := by
        refine if_neg ?_
        rintro (h | h | h)
        · rw [hquiet] at h
          cases h
        · exact hscan h
        · exact hpoint h
      rw [hpass, ← (s.lineSamples line).advanceClock_of_neither hscan hpoint]
      exact congrArg Host.Outcome.next (if_pos hrun)
    case running =>
      obtain ⟨u, hu⟩ : ∃ u, u = s.lineSamples line := ⟨_, rfl⟩
      have hport : ∀ p, u.port.get p = { s.port.get p with output := s.outputSample p, lineBuf := line.get p :: (s.port.get p).lineBuf } := by
        intro p
        rw [hu]
        exact Four.get_mapIdx _ _ _
      have hring : u.ring = s.ring := by rw [hu]; rfl
      have hscan : u.reachesScan ↔ scan := by rw [hu]; exact Iff.rfl
      have hpoint : u.reachesPoint ↔ point := by rw [hu]; exact Iff.rfl
      obtain ⟨hmem, hex, hmarks, hchan, hcap⟩ := u.advanceClock_fields
      obtain ⟨hident, htone, hbus, harb, hverdict, hpending⟩ := u.advanceClock_rest
      have hsent : exec (.samplePeriod line) s = .next u.advanceClock := by
        rw [hu]
        exact congrArg Host.Outcome.next (if_pos hrun)
      refine ⟨u.advanceClock, hsent, ?clock, fun h => ?scan, fun h => ?noScan, fun h => ?point, fun h => ?noPoint, fun p => ?lines,
        hmem.trans ?_, hex.trans ?_, hbus.trans ?_, hchan.trans ?_, hcap.trans ?_, harb.trans ?_, hverdict.trans ?_, hmarks.trans ?_,
        hpending.trans ?_⟩
      case clock =>
        rw [u.advanceClock_clock, hu]
        rfl
      case scan => exact ⟨(u.advanceClock_scan (hscan.mpr h)).1, (u.advanceClock_scan (hscan.mpr h)).2.1⟩
      case noScan =>
        obtain ⟨hsweep, hscans, htimers, hrings⟩ := u.advanceClock_noScan fun hs => h (hscan.mp hs)
        exact ⟨hsweep.trans (by rw [hu]; rfl), hscans.trans (by rw [hu]; rfl), htimers.trans (by rw [hu]; rfl), hrings.trans hring⟩
      case point =>
        obtain ⟨hmark, hdue, -⟩ := u.advanceClock_point (hpoint.mpr h)
        refine ⟨hmark, fun p => ?_⟩
        obtain ⟨hframe, hcapture, hverdicts, htick⟩ := hdue p
        refine ⟨hframe, hcapture, hverdicts, ?_⟩
        have hrunning : (u.tone.get p).run = (s.tone.get p).run := by
          rw [hu]
          show ((s.tone.mapIdx fun _ (t : Tone) => t.step).get p).run = _
          rw [Four.get_mapIdx]
          unfold Tone.step
          split <;> rfl
        rw [htick, u.hasRun_iff, hring, hrunning]
      case noPoint =>
        obtain ⟨hmark, hframe, hcapture, hverdicts, htick, -⟩ := u.advanceClock_noPoint fun hp => h (hpoint.mp hp)
        exact ⟨hmark.trans (by rw [hu]; rfl), hframe.trans (by rw [hu]; rfl), hcapture.trans (by rw [hu]; rfl),
          hverdicts.trans (by rw [hu]; rfl), htick.trans (by rw [hu]; rfl)⟩
      case lines =>
        intro r i n out
        have hout : s.outputSample p = out := s.outputSample_eq p
        refine ⟨?_, ?_, ?_, fun h => ?_⟩
        · by_cases hp : point
          · rw [if_pos hp, (u.advanceClock_point (hpoint.mpr hp)).2.2 p, hport p, ← hout]
          · rw [if_neg hp, (u.advanceClock_noPoint fun h => hp (hpoint.mp h)).2.2.2.2.2, hport p, ← hout]
        · rw [hident, hu]
          exact Four.get_mapIdx _ _ _
        · rw [htone, hu]
          refine (Four.get_mapIdx _ _ _).trans ?_
          unfold Tone.step
          exact if_congr (Bool.and_eq_true_iff) rfl rfl
        · rw [(u.advanceClock_scan (hscan.mpr h)).2.2, hring]
          exact Four.get_mapIdx _ _ _
      all_goals
        rw [hu]
        rfl

end Sys2Proof.Machine

/-! ## The frame analysis and the frame verdicts (R162, R164) -/

namespace Sys2Proof.Machine

/-! ### The order of a component list -/

theorem componentBefore_iff (a b : Component) : componentBefore a b = true ↔ b.amp < a.amp ∨ a.amp = b.amp ∧ a.freq ≤ b.freq := by
  simp [componentBefore]

theorem componentBefore_total {a b : Component} (h : ¬ componentBefore a b = true) : componentBefore b a = true := by
  rw [componentBefore_iff] at h ⊢
  omega

theorem componentBefore_trans {a b c : Component} (hab : componentBefore a b = true) (hbc : componentBefore b c = true) :
    componentBefore a c = true := by
  rw [componentBefore_iff] at hab hbc ⊢
  omega

theorem insertComponent_perm (c : Component) (l : List Component) : (insertComponent c l).Perm (c :: l) := by
  induction l with
  | nil => exact List.Perm.refl _
  | cons d ds ih =>
    unfold insertComponent
    split
    · exact List.Perm.refl _
    · exact (ih.cons d).trans (List.Perm.swap c d ds)

theorem sortComponents_perm (l : List Component) : (sortComponents l).Perm l := by
  induction l with
  | nil => exact List.Perm.refl _
  | cons c cs ih => exact (insertComponent_perm c _).trans (ih.cons c)

theorem insertComponent_pairwise (c : Component) {l : List Component} (h : l.Pairwise fun a b => componentBefore a b = true) :
    (insertComponent c l).Pairwise fun a b => componentBefore a b = true := by
  induction l with
  | nil => exact List.pairwise_singleton _ _
  | cons d ds ih =>
    obtain ⟨hd, hds⟩ := List.pairwise_cons.mp h
    unfold insertComponent
    split
    · next hcd =>
      refine List.pairwise_cons.mpr ⟨fun x hx => ?_, h⟩
      rcases List.mem_cons.mp hx with rfl | hx
      · exact hcd
      · exact componentBefore_trans hcd (hd x hx)
    · next hcd =>
      refine List.pairwise_cons.mpr ⟨fun x hx => ?_, ih hds⟩
      rcases List.mem_cons.mp ((insertComponent_perm c ds).mem_iff.mp hx) with rfl | hx
      · exact componentBefore_total hcd
      · exact hd x hx

theorem sortComponents_pairwise (l : List Component) : (sortComponents l).Pairwise fun a b => componentBefore a b = true := by
  induction l with
  | nil => exact List.Pairwise.nil
  | cons c cs ih => exact insertComponent_pairwise c ih

/-- Every component that R162 allows, in its order: the list of which at most 8 are given. -/
def rankedComponents (cs : List Component) : List Component := sortComponents (cs.filter componentListed)

theorem normaliseComponents_eq (cs : List Component) : normaliseComponents cs = (rankedComponents cs).take 8 := rfl

theorem mem_rankedComponents {cs : List Component} {c : Component} (h : c ∈ rankedComponents cs) : c.freq ≤ 39999 ∧ 16 ≤ c.amp ∧ c.amp ≤ 8191 := by
  have hlisted := (List.mem_filter.mp ((sortComponents_perm _).mem_iff.mp h)).2
  simpa [componentListed, and_assoc] using hlisted

/-! ### The energy of a frame -/

theorem frameEnergy_eq (f : Frame) : frameEnergy f = (f.map fun x => x.toInt.natAbs ^ 2).sum := by
  have hfold : ∀ (f : Frame) (n : Nat), f.foldl (fun acc x => acc + x.toInt.natAbs * x.toInt.natAbs) n =
      n + (f.map fun x => x.toInt.natAbs ^ 2).sum := by
    intro f
    induction f with
    | nil => exact fun n => rfl
    | cons x f ih =>
      intro n
      rw [List.foldl_cons, ih, List.map_cons, List.sum_cons, sq, Nat.add_assoc]
  exact (hfold f 0).trans (Nat.zero_add _)

theorem frameEnergy_eq_zero_iff (f : Frame) : frameEnergy f = 0 ↔ ∀ x ∈ f, x = 0 := by
  have hzero : ∀ x : Sample, x.toInt.natAbs ^ 2 = 0 ↔ x = 0 := by
    intro x
    rw [pow_eq_zero_iff (by decide), Int.natAbs_eq_zero]
    exact ⟨fun h => BitVec.eq_of_toInt_eq h, fun h => h ▸ rfl⟩
  rw [frameEnergy_eq, List.sum_eq_zero_iff]
  simp only [List.forall_mem_map, hzero]

theorem analyse_silent {f : Frame} (h : frameEnergy f = 0) : analyse f = [] := if_pos h

theorem analyse_heard {f : Frame} (h : frameEnergy f ≠ 0) : analyse f = (rankedComponents ((wavesFound f).map waveComponent)).take 8 := if_neg h

/-- Whatever the waves, the list is the start of a list in R162's order. -/
theorem analyse_take (f : Frame) : ∃ cs, analyse f = (rankedComponents cs).take 8 := by
  by_cases h : frameEnergy f = 0
  · exact ⟨[], analyse_silent h⟩
  · exact ⟨_, analyse_heard h⟩

/-! ### Sums of steady waves -/

theorem steadySum_iff (ws : List Wave) (f : Frame) : steadySum ws f = true ↔ ∃ kind ∈ sumKinds, sumOf ws f kind = true := List.any_eq_true

theorem mem_sumKinds (kind : SumKind) : kind ∈ sumKinds := by
  obtain ⟨tone, coding⟩ := kind
  cases tone <;> rcases coding with _ | _ | _ | _ <;> decide

theorem sumOf_iff (ws : List Wave) (f : Frame) (kind : SumKind) :
    sumOf ws f kind = true ↔ (if kind.tone then toneWaves ws else steadyWaves ws) = true ∧ f = frameOf kind ws := by
  unfold sumOf
  rw [Bool.and_eq_true, beq_iff_eq]

/-- A sum by its kinds: of a synthesis tone or of exact waves, in any coding. -/
theorem steadySum_iff_coding (ws : List Wave) (f : Frame) : steadySum ws f = true ↔ ∃ coding : Option Coding,
    toneWaves ws = true ∧ f = frameOf { tone := true, coding := coding } ws ∨
    steadyWaves ws = true ∧ f = frameOf { tone := false, coding := coding } ws := by
  rw [steadySum_iff]
  constructor
  · rintro ⟨⟨tone, coding⟩, -, h⟩
    rw [sumOf_iff] at h
    cases tone with
    | true => exact ⟨coding, Or.inl h⟩
    | false => exact ⟨coding, Or.inr h⟩
  · rintro ⟨coding, h | h⟩
    · exact ⟨⟨true, coding⟩, mem_sumKinds _, (sumOf_iff _ _ _).mpr h⟩
    · exact ⟨⟨false, coding⟩, mem_sumKinds _, (sumOf_iff _ _ _).mpr h⟩

/-- The waves of a sum are at most 26, each in range. -/
theorem waves_of_steadySum {ws : List Wave} {f : Frame} (h : steadySum ws f = true) :
    ws.length ≤ 26 ∧ ∀ w ∈ ws, waveInRange w = true := by
  obtain ⟨coding, ⟨h, -⟩ | ⟨h, -⟩⟩ := (steadySum_iff_coding ws f).mp h
  · unfold toneWaves at h
    simp only [Bool.and_eq_true, decide_eq_true_eq, List.all_eq_true] at h
    obtain ⟨⟨⟨hlen, hrange⟩, -⟩, -⟩ := h
    exact ⟨hlen.trans (by decide), hrange⟩
  · unfold steadyWaves at h
    simp only [Bool.and_eq_true, decide_eq_true_eq, List.all_eq_true] at h
    obtain ⟨⟨⟨hlen, hrange⟩, -⟩, -⟩ := h
    exact ⟨hlen, hrange⟩

theorem waveInRange_iff (w : Wave) : waveInRange w = true ↔
    (waveComponent w).freq ≤ 39999 ∧ 0 < w.amp ∧ (waveComponent w).amp ≤ 8191 ∧ w.phase < 2 ^ 64 := by
  simp [waveInRange, and_assoc]

/-- The rank of a sum: eight to a wave, and the kinds below. -/
theorem sumRank_of_steadySum {ws : List Wave} {f : Frame} (h : steadySum ws f = true) :
    8 * ws.length ≤ sumRank ws f ∧ sumRank ws f < 8 * ws.length + 8 := by
  have hkind : sumKinds.findIdx (sumOf ws f) < sumKinds.length := List.findIdx_lt_length_of_exists ((steadySum_iff ws f).mp h)
  unfold sumRank
  exact ⟨Nat.le_add_right _ _, Nat.add_lt_add_left hkind _⟩

/-! ### The search for the fewest waves -/

theorem findBelow_some {p : Nat → Bool} {n k : Nat} (h : findBelow p n = some k) : p k = true := by
  induction n with
  | zero => cases h
  | succ n ih =>
    unfold findBelow at h
    cases hn : findBelow p n with
    | some j =>
      rw [hn] at h
      cases h
      exact ih hn
    | none =>
      rw [hn, Option.none_or] at h
      by_cases hp : p n = true
      · rw [if_pos hp] at h
        cases h
        exact hp
      · rw [if_neg hp] at h
        cases h

theorem findBelow_none {p : Nat → Bool} {n : Nat} (h : findBelow p n = none) : ∀ k, k < n → p k = false := by
  induction n with
  | zero => exact fun k hk => absurd hk (Nat.not_lt_zero k)
  | succ n ih =>
    intro k hk
    obtain ⟨hbelow, hlast⟩ := Option.or_eq_none_iff.mp h
    rcases Nat.lt_succ_iff_lt_or_eq.mp hk with hk | rfl
    · exact ih hbelow k hk
    · by_contra hp
      rw [Bool.not_eq_false] at hp
      rw [if_pos hp] at hlast
      cases hlast

/-- Every list of waves in range has a code. -/
theorem exists_code (ws : List Wave) (h : ∀ w ∈ ws, waveInRange w = true) : ∃ c, c < waveCodes ^ ws.length ∧ wavesOfCode ws.length c = ws := by
  induction ws with
  | nil => exact ⟨0, Nat.one_pos, rfl⟩
  | cons w ws ih =>
    obtain ⟨rest, hrest, hws⟩ := ih fun v hv => h v (List.mem_cons_of_mem w hv)
    obtain ⟨hfreq, -, hamp, hphase⟩ := (waveInRange_iff w).mp (h w List.mem_cons_self)
    unfold waveComponent at hfreq hamp
    dsimp only at hfreq hamp
    obtain ⟨code, hcode, hwave⟩ : ∃ code, code < waveCodes ∧ waveOfCode code = w := by
      refine ⟨w.step + 2 ^ 64 * (w.phase + 2 ^ 64 * w.amp), by unfold waveCodes; omega, ?_⟩
      unfold waveOfCode
      have hstep : (w.step + 2 ^ 64 * (w.phase + 2 ^ 64 * w.amp)) % 2 ^ 64 = w.step := by omega
      have hph : (w.step + 2 ^ 64 * (w.phase + 2 ^ 64 * w.amp)) / 2 ^ 64 % 2 ^ 64 = w.phase := by omega
      have ham : (w.step + 2 ^ 64 * (w.phase + 2 ^ 64 * w.amp)) / 2 ^ 128 % 2 ^ 61 = w.amp := by omega
      rw [hstep, hph, ham]
    have hpos : 0 < waveCodes := by unfold waveCodes; omega
    refine ⟨code + waveCodes * rest, ?_, ?_⟩
    · rw [List.length_cons, pow_succ']
      calc code + waveCodes * rest < waveCodes + waveCodes * rest := Nat.add_lt_add_right hcode _
        _ = waveCodes * (rest + 1) := by ring
        _ ≤ waveCodes * waveCodes ^ ws.length := Nat.mul_le_mul_left _ hrest
    · show waveOfCode ((code + waveCodes * rest) % waveCodes) :: wavesOfCode ws.length ((code + waveCodes * rest) / waveCodes) = _
      rw [Nat.add_mul_mod_self_left, Nat.mod_eq_of_lt hcode, hwave, Nat.add_mul_div_left _ _ hpos, Nat.div_eq_of_lt hcode, Nat.zero_add, hws]

/-- What the search at a rank finds is a sum of that rank. -/
theorem searchWaves_some {f : Frame} {r : Nat} {ws : List Wave} (h : searchWaves f r = some ws) : steadySum ws f = true ∧ sumRank ws f = r := by
  obtain ⟨c, hc, rfl⟩ := Option.map_eq_some_iff.mp h
  have hp := findBelow_some hc
  rwa [Bool.and_eq_true, beq_iff_eq] at hp

/-- And it finds one wherever there is one. -/
theorem searchWaves_ne_none {f : Frame} {ws : List Wave} (h : steadySum ws f = true) : searchWaves f (sumRank ws f) ≠ none := by
  obtain ⟨hlo, hhi⟩ := sumRank_of_steadySum h
  have hlength : sumRank ws f / 8 = ws.length := by omega
  obtain ⟨c, hc, hws⟩ := exists_code ws (waves_of_steadySum h).2
  intro hnone
  unfold searchWaves at hnone
  rw [Option.map_eq_none_iff, hlength] at hnone
  have hfalse := findBelow_none hnone c hc
  rw [hws, h, beq_self_eq_true] at hfalse
  cases hfalse

/-- The search over all ranks finds a sum of the first. -/
theorem fewestWaves_least {f : Frame} {ws : List Wave} (h : steadySum ws f = true) : ∃ vs, fewestWaves f = some vs ∧ steadySum vs f = true ∧
    ∀ us, steadySum us f = true → sumRank vs f ≤ sumRank us f := by
  have hrange : ∀ {us : List Wave}, steadySum us f = true → sumRank us f ∈ List.range 216 := by
    intro us hus
    obtain ⟨-, hhi⟩ := sumRank_of_steadySum hus
    have hlen := (waves_of_steadySum hus).1
    exact List.mem_range.mpr (by omega)
  obtain ⟨vs, hvs⟩ : ∃ vs, fewestWaves f = some vs := by
    refine Option.ne_none_iff_exists'.mp fun hnone => ?_
    exact searchWaves_ne_none h (List.findSome?_eq_none_iff.mp hnone _ (hrange h))
  obtain ⟨before, r, behind, hsplit, hfound, hearlier⟩ := List.findSome?_eq_some_iff.mp hvs
  obtain ⟨hsum, hrank⟩ := searchWaves_some hfound
  refine ⟨vs, hvs, hsum, fun us hus => ?_⟩
  have hsorted : (before ++ r :: behind).Pairwise (· < ·) := hsplit ▸ List.pairwise_lt_range
  have hmem : sumRank us f ∈ before ++ r :: behind := hsplit ▸ hrange hus
  rw [hrank]
  rcases List.mem_append.mp hmem with hbefore | hmem
  · exact absurd (hearlier _ hbefore) (searchWaves_ne_none hus)
  · rcases List.mem_cons.mp hmem with hr | hbehind
    · exact hr.ge
    · exact ((List.pairwise_cons.mp (List.pairwise_append.mp hsorted).2.1).1 _ hbehind).le

/-- The waves the part takes a sum of steady waves for: a sum of the first rank. -/
theorem wavesFound_least {f : Frame} {ws : List Wave} (h : steadySum ws f = true) : steadySum (wavesFound f) f = true ∧
    ∀ us, steadySum us f = true → sumRank (wavesFound f) f ≤ sumRank us f := by
  unfold wavesFound
  by_cases hown : leastSum (Config.waves f) f = true
  · rw [if_pos hown]
    unfold leastSum at hown
    rw [Bool.and_eq_true, List.all_eq_true] at hown
    obtain ⟨hsum, hnone⟩ := hown
    refine ⟨hsum, fun us hus => ?_⟩
    by_contra hlt
    have hearlier := hnone (sumRank us f) (List.mem_range.mpr (Nat.lt_of_not_le hlt))
    exact searchWaves_ne_none hus (Option.isNone_iff_eq_none.mp hearlier)
  · rw [if_neg hown]
    obtain ⟨vs, hvs, hsum, hleast⟩ := fewestWaves_least h
    rw [hvs]
    exact ⟨hsum, hleast⟩

/-- A sum of steady waves is analysed as the waves of such a sum, the strongest eight. -/
theorem analyse_steadySum {f : Frame} {ws : List Wave} (hheard : frameEnergy f ≠ 0) (h : steadySum ws f = true) :
    ∃ (vs : List Wave) (rest : List Component), steadySum vs f = true ∧
      (∀ us, steadySum us f = true → vs.length ≤ us.length ∧ sumRank vs f ≤ sumRank us f) ∧
      (analyse f ++ rest).Perm ((vs.map waveComponent).filter fun c => decide (16 ≤ c.amp)) ∧
      (rest ≠ [] → (analyse f).length = 8) ∧
      ∀ c ∈ analyse f, ∀ d ∈ rest, d.amp < c.amp ∨ d.amp = c.amp ∧ c.freq ≤ d.freq := by
  obtain ⟨hsum, hleast⟩ := wavesFound_least h
  obtain ⟨l, hl⟩ : ∃ l, l = rankedComponents ((wavesFound f).map waveComponent) := ⟨_, rfl⟩
  have hanalyse : analyse f = l.take 8 := by rw [hl]; exact analyse_heard hheard
  rw [hanalyse]
  refine ⟨wavesFound f, l.drop 8, hsum, fun us hus => ⟨?_, hleast us hus⟩, ?_, fun hrest => ?_, fun c hc d hd => ?_⟩
  · obtain ⟨hlo, -⟩ := sumRank_of_steadySum hsum
    obtain ⟨-, hhi⟩ := sumRank_of_steadySum hus
    have hle := hleast us hus
    omega
  · rw [List.take_append_drop, hl]
    have hfilter : ((wavesFound f).map waveComponent).filter componentListed =
        ((wavesFound f).map waveComponent).filter fun c => decide (16 ≤ c.amp) := by
      refine List.filter_congr fun c hc => ?_
      obtain ⟨w, hw, rfl⟩ := List.mem_map.mp hc
      obtain ⟨hfreq, -, hamp, -⟩ := (waveInRange_iff w).mp ((waves_of_steadySum hsum).2 w hw)
      simp [componentListed, hfreq, hamp]
    rw [← hfilter]
    exact sortComponents_perm _
  · rw [List.length_take]
    have hlen : l.length - 8 ≠ 0 := fun h0 => hrest (List.drop_eq_nil_of_le (by omega))
    omega
  · have hsorted : (l.take 8 ++ l.drop 8).Pairwise fun a b => componentBefore a b = true := by
      rw [List.take_append_drop, hl]
      exact sortComponents_pairwise _
    have hbefore := (componentBefore_iff c d).mp ((List.pairwise_append.mp hsorted).2.2 c hc d hd)
    exact hbefore.imp_right fun heq => ⟨heq.1.symm, heq.2⟩

/-! ### The bands of R164 -/

theorem withinBand_iff (k f m : Nat) : withinBand k f m = true ↔ 20 * ((m : Int) - 10 * (f : Int)).natAbs ≤ k * f := by
  simp [withinBand]

/-- Bands whose centres are far enough apart share no frequency. -/
theorem withinBand_unique {f g m : Nat} (hf : withinBand 7 f m = true) (hg : withinBand 7 g m = true) :
    200 * ((f : Int) - (g : Int)).natAbs ≤ 7 * (f + g) := by
  rw [withinBand_iff] at hf hg
  omega

theorem groups_apart : ∀ f ∈ lowGroup ++ highGroup, ∀ g ∈ lowGroup ++ highGroup,
    200 * ((f : Int) - (g : Int)).natAbs ≤ 7 * (f + g) → f = g := by decide

/-- The groups lie about the calling tone and below the answer tone. -/
theorem groups_clear : ∀ f ∈ lowGroup ++ highGroup, f ≤ 941 ∨ 1209 ≤ f ∧ f ≤ 1633 := by decide

/-- No frequency of a digit's band is a tone's. -/
theorem withinBand_clear {f m : Nat} (hf : f ∈ lowGroup ++ highGroup) (h : withinBand 7 f m = true) :
    150 < ((m : Int) - 21000).natAbs ∧ 380 < ((m : Int) - 11000).natAbs := by
  have hclear := groups_clear f hf
  rw [withinBand_iff] at h
  omega

/-- The place of a frequency in a group is the one whose band it lies in. -/
theorem groupIndex_iff {group : List Nat} (hsub : ∀ f ∈ group, f ∈ lowGroup ++ highGroup) (hnodup : group.Nodup) (m i : Nat) :
    groupIndex group m = some i ↔ i < group.length ∧ withinBand 7 (group.getD i 0) m = true := by
  unfold groupIndex
  rw [List.findIdx?_eq_some_iff_getElem]
  constructor
  · rintro ⟨hi, hin, -⟩
    exact ⟨hi, by rwa [List.getD_eq_getElem _ _ hi]⟩
  · rintro ⟨hi, hin⟩
    rw [List.getD_eq_getElem _ _ hi] at hin
    refine ⟨hi, hin, fun j hj hjin => ?_⟩
    have hjlt : j < group.length := hj.trans hi
    have heq := groups_apart _ (hsub _ (List.getElem_mem hjlt)) _ (hsub _ (List.getElem_mem hi)) (withinBand_unique hjin hin)
    exact absurd ((List.Nodup.getElem_inj_iff hnodup).mp heq) hj.ne

theorem lowIndex_iff (m i : Nat) : groupIndex lowGroup m = some i ↔ i < 4 ∧ withinBand 7 (lowGroup.getD i 0) m = true :=
  groupIndex_iff (fun _ h => List.mem_append_left _ h) (by decide) m i

theorem highIndex_iff (m i : Nat) : groupIndex highGroup m = some i ↔ i < 4 ∧ withinBand 7 (highGroup.getD i 0) m = true :=
  groupIndex_iff (fun _ h => List.mem_append_right _ h) (by decide) m i

/-- A digit by its two bands. -/
theorem digitOfPair_iff (l h d : Nat) : digitOfPair l h = some d ↔ ∃ i j, i < 4 ∧ j < 4 ∧ withinBand 7 (lowGroup.getD i 0) l = true ∧
    withinBand 7 (highGroup.getD j 0) h = true ∧ (withinBand 3 (lowGroup.getD i 0) l = true ∨ withinBand 3 (highGroup.getD j 0) h = true) ∧
    d = (digitTable.getD i []).getD j 0 := by
  unfold digitOfPair
  constructor
  · intro hd
    cases hi : groupIndex lowGroup l with
    | none => simp only [hi] at hd; cases hd
    | some i =>
      cases hj : groupIndex highGroup h with
      | none => simp only [hi, hj] at hd; cases hd
      | some j =>
        simp only [hi, hj, Bool.or_eq_true] at hd
        by_cases hnear : withinBand 3 (lowGroup.getD i 0) l = true ∨ withinBand 3 (highGroup.getD j 0) h = true
        · rw [if_pos hnear] at hd
          obtain ⟨hi4, hlow⟩ := (lowIndex_iff l i).mp hi
          obtain ⟨hj4, hhigh⟩ := (highIndex_iff h j).mp hj
          exact ⟨i, j, hi4, hj4, hlow, hhigh, hnear, (Option.some.inj hd).symm⟩
        · rw [if_neg hnear] at hd
          cases hd
  · rintro ⟨i, j, hi4, hj4, hlow, hhigh, hnear, rfl⟩
    have hi := (lowIndex_iff l i).mpr ⟨hi4, hlow⟩
    have hj := (highIndex_iff h j).mpr ⟨hj4, hhigh⟩
    simp only [hi, hj, Bool.or_eq_true, if_pos hnear]

/-- A frequency of the high group gives no digit as the low one. -/
theorem digitOfPair_of_high {l h : Nat} {j : Nat} (hj : j < 4) (hhigh : withinBand 7 (highGroup.getD j 0) l = true) : digitOfPair l h = none := by
  cases hd : digitOfPair l h with
  | none => rfl
  | some d =>
    obtain ⟨i, -, hi, -, hlow, -⟩ := (digitOfPair_iff l h d).mp hd
    have hlowMem : lowGroup.getD i 0 ∈ lowGroup := by
      rw [List.getD_eq_getElem lowGroup 0 hi]
      exact List.getElem_mem _
    have hhighMem : highGroup.getD j 0 ∈ highGroup := by
      rw [List.getD_eq_getElem highGroup 0 hj]
      exact List.getElem_mem _
    have heq := groups_apart _ (List.mem_append_left _ hlowMem) _ (List.mem_append_right _ hhighMem) (withinBand_unique hlow hhigh)
    have hdisjoint : ∀ f ∈ lowGroup, f ∉ highGroup := by decide
    exact absurd (heq ▸ hhighMem) (hdisjoint _ hlowMem)

/-- Test 1 by its conditions: the two strongest components in either order. -/
theorem digitTest_iff (cs : List Component) (d : Nat) : digitTest cs = some d ↔
    ∃ strong weak rest, cs = strong :: weak :: rest ∧ 256 ≤ strong.amp ∧ 256 ≤ weak.amp ∧ 2 * strong.amp ≤ 5 * weak.amp ∧
      (∀ c ∈ rest, 2 * c.amp ≤ weak.amp) ∧ (digitOfPair strong.freq weak.freq = some d ∨ digitOfPair weak.freq strong.freq = some d) := by
  constructor
  · intro h
    match cs, h with
    | strong :: weak :: rest, h =>
      unfold digitTest at h
      by_cases hlevels : (256 ≤ strong.amp && 256 ≤ weak.amp && 2 * strong.amp ≤ 5 * weak.amp && rest.all (fun c => 2 * c.amp ≤ weak.amp)) = true
      · simp only [hlevels, if_true] at h
        simp only [Bool.and_eq_true, decide_eq_true_eq, List.all_eq_true] at hlevels
        obtain ⟨⟨⟨hstrong, hweak⟩, htwist⟩, hrest⟩ := hlevels
        refine ⟨strong, weak, rest, rfl, hstrong, hweak, htwist, hrest, ?_⟩
        cases hpair : digitOfPair strong.freq weak.freq with
        | some e =>
          rw [hpair] at h
          exact Or.inl h
        | none =>
          rw [hpair] at h
          exact Or.inr h
      · simp only [hlevels] at h
        cases h
  · rintro ⟨strong, weak, rest, rfl, hstrong, hweak, htwist, hrest, hpair⟩
    have hlevels : (256 ≤ strong.amp && 256 ≤ weak.amp && 2 * strong.amp ≤ 5 * weak.amp && rest.all (fun c => 2 * c.amp ≤ weak.amp)) = true := by
      simp only [Bool.and_eq_true, decide_eq_true_eq, List.all_eq_true]
      exact ⟨⟨⟨hstrong, hweak⟩, htwist⟩, hrest⟩
    unfold digitTest
    simp only [hlevels, if_true]
    rcases hpair with hpair | hpair
    · simp only [hpair]
    · obtain ⟨-, j, -, hj, -, hhigh, -⟩ := (digitOfPair_iff _ _ _).mp hpair
      simp only [digitOfPair_of_high hj hhigh, hpair]

/-! ### Tests 2 and 3 -/

theorem toneTest_iff (centre band : Nat) (cs : List Component) (e2 : Nat) : toneTest centre band cs e2 = true ↔ ∃ c rest, cs = c :: rest ∧
    ((c.freq : Int) - (centre : Int)).natAbs ≤ band ∧ 128 ≤ c.amp ∧ e2 ≤ 50 * c.amp ^ 2 := by
  cases cs with
  | nil => exact iff_of_false nofun nofun
  | cons c cs =>
    unfold toneTest
    simp [and_assoc, sq]

/-- The two tones' bands are apart, so a verdict says which test passed. -/
theorem toneVerdict_iff (cs : List Component) (e2 : Nat) :
    (toneVerdict cs e2 = .answerTone ↔ toneTest 21000 150 cs e2 = true) ∧
    (toneVerdict cs e2 = .callingTone ↔ toneTest 11000 380 cs e2 = true) ∧ ∀ d, toneVerdict cs e2 ≠ .digit d := by
  unfold toneVerdict
  by_cases hanswer : toneTest 21000 150 cs e2 = true
  · have hcalling : ¬ toneTest 11000 380 cs e2 = true := by
      intro hcalling
      obtain ⟨c, rest, rfl, hnear, -⟩ := (toneTest_iff _ _ _ _).mp hanswer
      obtain ⟨c', rest', heq, hnear', -⟩ := (toneTest_iff _ _ _ _).mp hcalling
      cases heq
      omega
    rw [if_pos hanswer]
    exact ⟨iff_of_true rfl hanswer, iff_of_false nofun hcalling, nofun⟩
  · rw [if_neg hanswer]
    by_cases hcalling : toneTest 11000 380 cs e2 = true
    · rw [if_pos hcalling]
      exact ⟨iff_of_false nofun hanswer, iff_of_true rfl hcalling, nofun⟩
    · rw [if_neg hcalling]
      exact ⟨iff_of_false nofun hanswer, iff_of_false nofun hcalling, nofun⟩

theorem classifyAnalysis_of_digit {cs : List Component} {d : Nat} (h : digitTest cs = some d) (e2 : Nat) :
    classifyAnalysis cs e2 = .digit d := by
  unfold classifyAnalysis
  simp only [h]

theorem classifyAnalysis_of_none {cs : List Component} (h : digitTest cs = none) (e2 : Nat) :
    classifyAnalysis cs e2 = toneVerdict cs e2 := by
  unfold classifyAnalysis
  simp only [h]

theorem classifyAnalysis_digit_iff (cs : List Component) (e2 d : Nat) : classifyAnalysis cs e2 = .digit d ↔ digitTest cs = some d := by
  cases hd : digitTest cs with
  | some e =>
    rw [classifyAnalysis_of_digit hd]
    exact ⟨fun h => congrArg some (FrameVerdict.digit.inj h), fun h => congrArg FrameVerdict.digit (Option.some.inj h)⟩
  | none =>
    rw [classifyAnalysis_of_none hd]
    exact iff_of_false ((toneVerdict_iff cs e2).2.2 d) nofun

/-- Settles O50: the list by the sorted components of the waves found, which are the first sum's, and the verdict by the three tests. -/
theorem frameAnalysisGivesTheVerdict : Obligations.FrameAnalysisGivesTheVerdict := by
  unfold Obligations.FrameAnalysisGivesTheVerdict
  intro low high within tone
  refine ⟨fun f => ?analysis, steadySum_iff_coding, fun tone ws => ?coded, fun cs d => ?digit, fun cs e2 => ?verdict, fun f => ⟨rfl, rfl⟩,
    fun freq f g hf hg hin => ?bands⟩
  case analysis =>
    obtain ⟨cs, hcs⟩ := analyse_take f
    refine ⟨frameEnergy_eq f, ?_, fun c hc => ?_, ?_, fun hsilent => ?_, fun ws hheard hsum => ?_⟩
    · rw [hcs]
      exact List.length_take_le 8 _
    · rw [hcs] at hc
      exact mem_rankedComponents (List.mem_of_mem_take hc)
    · rw [hcs]
      exact ((sortComponents_pairwise _).sublist (List.take_sublist 8 _)).imp fun h => (componentBefore_iff _ _).mp h
    · have hzero := (frameEnergy_eq_zero_iff f).mpr hsilent
      exact ⟨analyse_silent hzero, hzero⟩
    · obtain ⟨x, hx, hne⟩ := hheard
      exact analyse_steadySum (fun h0 => hne ((frameEnergy_eq_zero_iff f).mp h0 x hx)) hsum
  case coded => exact ⟨(List.map_map ..).symm, (List.map_map ..).symm⟩
  case digit =>
    rw [digitTest_iff]
    refine exists_congr fun strong => exists_congr fun weak => exists_congr fun rest => and_congr_right fun _ => and_congr_right fun _ =>
      and_congr_right fun _ => and_congr_right fun _ => and_congr_right fun _ => ?_
    rw [digitOfPair_iff, digitOfPair_iff]
    simp only [withinBand_iff]
    constructor
    · rintro (⟨i, j, h⟩ | ⟨i, j, h⟩)
      · exact ⟨_, _, i, j, Or.inl ⟨rfl, rfl⟩, h⟩
      · exact ⟨_, _, i, j, Or.inr ⟨rfl, rfl⟩, h⟩
    · rintro ⟨l, h, i, j, ⟨rfl, rfl⟩ | ⟨rfl, rfl⟩, hpair⟩
      · exact Or.inl ⟨i, j, hpair⟩
      · exact Or.inr ⟨i, j, hpair⟩
  case verdict =>
    obtain ⟨hanswer, hcalling, hdigit⟩ := toneVerdict_iff cs e2
    exact ⟨hanswer.trans (toneTest_iff _ _ _ _), hcalling.trans (toneTest_iff _ _ _ _), hdigit, classifyAnalysis_digit_iff cs e2,
      fun h => classifyAnalysis_of_none h e2⟩
  case bands =>
    have hband := (withinBand_iff 7 f freq).mpr hin
    exact ⟨fun hin' => groups_apart f hf g hg (withinBand_unique hband ((withinBand_iff 7 g freq).mpr hin')), withinBand_clear hf hband⟩

end Sys2Proof.Machine

/-! ## The sine of a phase, against the real sine (R151, R159, log 17) -/

namespace Sys2Proof.Machine

/-! ### The Taylor series of the real sine -/

/-- Term i of the sine's Taylor series. -/
noncomputable def sineTerm (x : ℝ) (i : Nat) : ℝ := x ^ (2 * i + 1) / (2 * i + 1).factorial

/-- The k terms of the series from term i on, their signs alternating. -/
noncomputable def sineTail (x : ℝ) : Nat → Nat → ℝ
  | 0, _ => 0
  | k + 1, i => sineTerm x i - sineTail x k (i + 1)

theorem sineTail_eq_sum (x : ℝ) (k : Nat) : ∀ i, sineTail x k i = ∑ j ∈ Finset.range k, (-1) ^ j * sineTerm x (i + j) := by
  induction k with
  | zero => exact fun i => rfl
  | succ k ih =>
    intro i
    rw [Finset.sum_range_succ']
    show sineTerm x i - sineTail x k (i + 1) = _
    rw [ih, pow_zero, one_mul, Nat.add_zero, sub_eq_neg_add, ← Finset.sum_neg_distrib]
    refine congrArg (· + sineTerm x i) (Finset.sum_congr rfl fun j _ => ?_)
    rw [pow_succ, show i + 1 + j = i + (j + 1) by omega]
    ring

/-- The imaginary part of the exponential's series is the sine's. -/
theorem im_expSeries (x : ℝ) (k : Nat) :
    (∑ m ∈ Finset.range (2 * k), ((x : ℂ) * Complex.I) ^ m / (m.factorial : ℂ)).im = sineTail x k 0 := by
  rw [sineTail_eq_sum]
  induction k with
  | zero => rfl
  | succ k ih =>
    have heven : ((x : ℂ) * Complex.I) ^ (2 * k) = (((-1) ^ k * x ^ (2 * k) : ℝ) : ℂ) := by
      rw [mul_pow, pow_mul Complex.I, Complex.I_sq]
      push_cast
      ring
    have heven_im : (((x : ℂ) * Complex.I) ^ (2 * k) / ((2 * k).factorial : ℂ)).im = 0 := by
      rw [heven, ← Complex.ofReal_natCast, ← Complex.ofReal_div, Complex.ofReal_im]
    have hodd_im : (((x : ℂ) * Complex.I) ^ (2 * k + 1) / ((2 * k + 1).factorial : ℂ)).im = (-1) ^ k * sineTerm x k := by
      have hterm : ((x : ℂ) * Complex.I) ^ (2 * k + 1) / ((2 * k + 1).factorial : ℂ) = (((-1) ^ k * sineTerm x k : ℝ) : ℂ) * Complex.I := by
        rw [pow_succ, heven]
        unfold sineTerm
        push_cast
        ring
      rw [hterm, Complex.mul_I_im, Complex.ofReal_re]
    rw [show 2 * (k + 1) = 2 * k + 1 + 1 by ring, Finset.sum_range_succ, Finset.sum_range_succ, Complex.add_im, Complex.add_im, ih, heven_im,
      hodd_im, add_zero, Finset.sum_range_succ, Nat.zero_add]

/-- The first 13 terms give the sine of at most a quarter turn to 2⁻⁶⁰. -/
theorem abs_sin_sub_sineTail {x : ℝ} (h0 : 0 ≤ x) (h : x ≤ 8 / 5) : |Real.sin x - sineTail x 13 0| ≤ 1 / 2 ^ 60 := by
  have hnorm : ‖(x : ℂ) * Complex.I‖ = x := by
    rw [norm_mul, Complex.norm_I, mul_one, Complex.norm_real, Real.norm_of_nonneg h0]
  have hexp := Complex.exp_bound' (x := (x : ℂ) * Complex.I) (n := 26) (by rw [hnorm]; norm_num; linarith)
  rw [hnorm] at hexp
  have him := (Complex.abs_im_le_norm _).trans hexp
  rw [Complex.sub_im, Complex.exp_ofReal_mul_I_im, show (26 : Nat) = 2 * 13 from rfl, im_expSeries] at him
  have hpow : x ^ (2 * 13) ≤ (8 / 5) ^ (2 * 13) := pow_le_pow_left₀ h0 h _
  have hfact : (((2 * 13).factorial : Nat) : ℝ) = 403291461126605635584000000 := by norm_num [Nat.factorial]
  calc |Real.sin x - sineTail x 13 0| ≤ x ^ (2 * 13) / ((2 * 13).factorial : Nat) * 2 := him
    _ ≤ (8 / 5) ^ (2 * 13) / ((2 * 13).factorial : Nat) * 2 := by gcongr
    _ ≤ 1 / 2 ^ 60 := by
      rw [hfact]
      norm_num

theorem sineTerm_succ (x : ℝ) (i : Nat) : sineTerm x (i + 1) = sineTerm x i * x ^ 2 / ((2 * i + 2) * (2 * i + 3) : Nat) := by
  unfold sineTerm
  have hfact : (2 * (i + 1) + 1).factorial = (2 * i + 2) * (2 * i + 3) * (2 * i + 1).factorial := by
    rw [show 2 * (i + 1) + 1 = 2 * i + 1 + 1 + 1 by ring, Nat.factorial_succ, Nat.factorial_succ]
    ring
  rw [hfact]
  push_cast
  have hpos : ((2 * i + 1).factorial : ℝ) ≠ 0 := Nat.cast_ne_zero.mpr (Nat.factorial_ne_zero _)
  field_simp
  ring

/-- No term exceeds the angle's bound. -/
theorem sineTerm_mem {x : ℝ} (h0 : 0 ≤ x) (h : x ≤ 8 / 5) (i : Nat) : 0 ≤ sineTerm x i ∧ sineTerm x i ≤ 8 / 5 := by
  induction i with
  | zero => exact ⟨by unfold sineTerm; simpa using h0, by unfold sineTerm; simpa using h⟩
  | succ i ih =>
    obtain ⟨hnonneg, hle⟩ := ih
    have hsq : x ^ 2 ≤ 6 := by nlinarith
    have hden : (6 : ℝ) ≤ ((2 * i + 2) * (2 * i + 3) : Nat) := by
      have hnat : 6 ≤ (2 * i + 2) * (2 * i + 3) := by nlinarith
      exact_mod_cast hnat
    have hratio : x ^ 2 / ((2 * i + 2) * (2 * i + 3) : Nat) ≤ 1 := by
      rw [div_le_one (by linarith)]
      linarith
    rw [sineTerm_succ]
    refine ⟨by positivity, ?_⟩
    rw [mul_div_assoc]
    exact (mul_le_of_le_one_right hnonneg hratio).trans hle

/-! ### The series in fixed point -/

/-- Whole division is the real quotient less a part of one. -/
theorem cast_div_eq (n : Nat) {d : Nat} (hd : 0 < d) : ∃ f : ℝ, 0 ≤ f ∧ f < 1 ∧ ((n / d : Nat) : ℝ) = n / d - f := by
  refine ⟨Int.fract ((n : ℝ) / d), Int.fract_nonneg _, Int.fract_lt_one _, ?_⟩
  have hfloor : ((n / d : Nat) : ℝ) = ⌊(n : ℝ) / d⌋ := by
    rw [← Nat.floor_div_eq_div (K := ℝ), ← Int.natCast_floor_eq_floor (by positivity), Int.cast_natCast]
  rw [hfloor]
  exact (sub_eq_of_eq_add' (Int.fract_add_floor _).symm).symm

theorem sineUnit_pos : (0 : ℝ) < sineUnit := by norm_num [sineUnit]

/-- One step of the series keeps a term within 4 of the real one. -/
theorem sineStep_close {x : ℝ} (h0 : 0 ≤ x) (h : x ≤ 8 / 5) {x2 : Nat} {f : ℝ} (hf0 : 0 ≤ f) (hf1 : f ≤ 1)
    (hx2 : (x2 : ℝ) = sineUnit * x ^ 2 - f) {i t : Nat} (ht : |(t : ℝ) - sineUnit * sineTerm x i| ≤ 4) :
    |((t * x2 / sineUnit / ((2 * i + 2) * (2 * i + 3)) : Nat) : ℝ) - sineUnit * sineTerm x (i + 1)| ≤ 4 := by
  have hU := sineUnit_pos
  have hU1 : (1 : ℝ) ≤ sineUnit := by norm_num [sineUnit]
  obtain ⟨hterm0, hterm⟩ := sineTerm_mem h0 h i
  obtain ⟨d, hd⟩ : ∃ d : Nat, d = (2 * i + 2) * (2 * i + 3) := ⟨_, rfl⟩
  have hd6 : 6 ≤ d := by rw [hd]; nlinarith
  have hd6' : (6 : ℝ) ≤ d := by exact_mod_cast hd6
  obtain ⟨r, hr0, hr1, hr⟩ := cast_div_eq (t * x2) (d := sineUnit * d) (Nat.mul_pos (by decide) (by omega))
  obtain ⟨e, he⟩ : ∃ e : ℝ, e = t - sineUnit * sineTerm x i := ⟨_, rfl⟩
  have ht' : (t : ℝ) = sineUnit * sineTerm x i + e := by rw [he]; ring
  rw [← he] at ht
  have herr : ((t * x2 / sineUnit / d : Nat) : ℝ) - sineUnit * sineTerm x (i + 1) =
      (e * x ^ 2 - sineTerm x i * f - e * (f / sineUnit)) / d - r := by
    rw [Nat.div_div_eq_div_mul, hr, sineTerm_succ, ← hd]
    push_cast
    rw [ht', hx2]
    field_simp
    ring
  have hsq : x ^ 2 ≤ 64 / 25 := by nlinarith
  have hsmall : |e * x ^ 2| ≤ 4 * (64 / 25) := by
    rw [abs_mul, abs_of_nonneg (sq_nonneg x)]
    exact mul_le_mul ht hsq (sq_nonneg x) (by norm_num)
  have hpart : |sineTerm x i * f| ≤ 8 / 5 * 1 := by
    rw [abs_mul, abs_of_nonneg hterm0, abs_of_nonneg hf0]
    exact mul_le_mul hterm hf1 hf0 (by norm_num)
  have hquot : |e * (f / sineUnit)| ≤ 4 * 1 := by
    rw [abs_mul, abs_of_nonneg (div_nonneg hf0 hU.le)]
    exact mul_le_mul ht ((div_le_one hU).mpr (hf1.trans hU1)) (div_nonneg hf0 hU.le) (by norm_num)
  have hsum : |e * x ^ 2 - sineTerm x i * f - e * (f / sineUnit)| ≤ 16 := by
    refine (abs_sub _ _).trans ((add_le_add_left (abs_sub _ _) _).trans ?_)
    linarith
  have hdiv : |(e * x ^ 2 - sineTerm x i * f - e * (f / sineUnit)) / d| ≤ 16 / 6 := by
    rw [abs_div, abs_of_pos (by linarith : (0 : ℝ) < d)]
    exact div_le_div₀ (by norm_num) hsum (by norm_num) hd6'
  rw [← hd, herr]
  refine (abs_sub _ _).trans ?_
  rw [abs_of_nonneg hr0]
  linarith

theorem sineSeries_succ (x2 k i t : Nat) : sineSeries x2 (k + 1) i t =
    (t : Int) - sineSeries x2 k (i + 1) (t * x2 / sineUnit / ((2 * i + 2) * (2 * i + 3))) := rfl

theorem sineTail_succ (x : ℝ) (k i : Nat) : sineTail x (k + 1) i = sineTerm x i - sineTail x k (i + 1) := rfl

/-- The series in fixed point lies within 4 a term of the real one. -/
theorem sineSeries_close {x : ℝ} (h0 : 0 ≤ x) (h : x ≤ 8 / 5) {x2 : Nat} {f : ℝ} (hf0 : 0 ≤ f) (hf1 : f ≤ 1)
    (hx2 : (x2 : ℝ) = sineUnit * x ^ 2 - f) (k : Nat) : ∀ {i t : Nat}, |(t : ℝ) - sineUnit * sineTerm x i| ≤ 4 →
    |((sineSeries x2 k i t : Int) : ℝ) - sineUnit * sineTail x k i| ≤ 4 * k := by
  induction k with
  | zero =>
    intro i t _
    simp [sineSeries, sineTail]
  | succ k ih =>
    intro i t ht
    have hrest := ih (sineStep_close h0 h hf0 hf1 hx2 ht)
    have hsplit : ((sineSeries x2 (k + 1) i t : Int) : ℝ) - sineUnit * sineTail x (k + 1) i = ((t : ℝ) - sineUnit * sineTerm x i) -
        (((sineSeries x2 k (i + 1) (t * x2 / sineUnit / ((2 * i + 2) * (2 * i + 3))) : Int) : ℝ) - sineUnit * sineTail x k (i + 1)) := by
      rw [sineSeries_succ, sineTail_succ]
      push_cast
      ring
    rw [hsplit]
    refine (abs_sub _ _).trans ?_
    push_cast
    linarith

/-! ### A quarter turn in 16,384 steps -/

/-- The sine of k of the 16,384 steps of a quarter turn, in fixed point. -/
def sineAt (k : Nat) : Nat := sineQuarter (halfPiFixed * k / 16384)

/-- The angle of k steps. -/
noncomputable def stepAngle (k : Nat) : ℝ := Real.pi / 2 * (k / 16384)

theorem halfPiFixed_close : |(halfPiFixed : ℝ) / sineUnit - Real.pi / 2| ≤ 1 / 2 ^ 63 := by
  have hlo := Real.pi_gt_d20
  have hhi := Real.pi_lt_d20
  have hvalue : (halfPiFixed : ℝ) / sineUnit = 28976077832308491369 / 2 ^ 64 := by norm_num [halfPiFixed, sineUnit]
  rw [hvalue, abs_le]
  norm_num at hlo hhi ⊢
  constructor <;> linarith

/-- The fixed-point angle of k steps. -/
theorem fixedAngle_close {k : Nat} (hk : k ≤ 16384) :
    |((halfPiFixed * k / 16384 : Nat) : ℝ) / sineUnit - stepAngle k| ≤ 1 / 2 ^ 62 := by
  obtain ⟨f, hf0, hf1, hf⟩ := cast_div_eq (halfPiFixed * k) (d := 16384) (by decide)
  have hk' : (k : ℝ) / 16384 ≤ 1 := by
    rw [div_le_one (by norm_num)]
    exact_mod_cast hk
  have hU : (sineUnit : ℝ) = 2 ^ 64 := by norm_num [sineUnit]
  have herr : ((halfPiFixed * k / 16384 : Nat) : ℝ) / sineUnit - stepAngle k =
      ((halfPiFixed : ℝ) / sineUnit - Real.pi / 2) * (k / 16384) - f / sineUnit := by
    rw [hf]
    unfold stepAngle
    push_cast
    ring
  have hangle : |((halfPiFixed : ℝ) / sineUnit - Real.pi / 2) * (k / 16384)| ≤ 1 / 2 ^ 63 * 1 := by
    rw [abs_mul, abs_of_nonneg (by positivity : (0 : ℝ) ≤ k / 16384)]
    exact mul_le_mul halfPiFixed_close hk' (by positivity) (by positivity)
  have hpart : |f / sineUnit| ≤ 1 / 2 ^ 64 := by
    rw [hU, abs_of_nonneg (by positivity)]
    gcongr
  rw [herr]
  refine (abs_sub _ _).trans ?_
  norm_num at hangle hpart ⊢
  linarith

theorem stepAngle_mem {k : Nat} (hk : k ≤ 16384) : 0 ≤ stepAngle k ∧ stepAngle k ≤ Real.pi / 2 := by
  have hk' : (k : ℝ) / 16384 ≤ 1 := by
    rw [div_le_one (by norm_num)]
    exact_mod_cast hk
  have hpi := Real.pi_pos
  unfold stepAngle
  exact ⟨by positivity, mul_le_of_le_one_right (by positivity) hk'⟩

/-- The fixed-point sine lies within 2⁻⁵⁷ of the real one. -/
theorem sineAt_close {k : Nat} (hk : k ≤ 16384) : |(sineAt k : ℝ) / sineUnit - Real.sin (stepAngle k)| ≤ 1 / 2 ^ 57 := by
  have hU := sineUnit_pos
  obtain ⟨n, hn⟩ : ∃ n : Nat, n = halfPiFixed * k / 16384 := ⟨_, rfl⟩
  obtain ⟨x, hx⟩ : ∃ x : ℝ, x = n / sineUnit := ⟨_, rfl⟩
  obtain ⟨hangle0, hangle⟩ := stepAngle_mem hk
  have hclose : |x - stepAngle k| ≤ 1 / 2 ^ 62 := by
    rw [hx, hn]
    exact fixedAngle_close hk
  have h0 : 0 ≤ x := by rw [hx]; positivity
  have h85 : x ≤ 8 / 5 := by
    have hpi := Real.pi_lt_d2
    have hdiff := (abs_le.mp hclose).2
    norm_num at hdiff hpi ⊢
    linarith
  obtain ⟨f, hf0, hf1, hf⟩ := cast_div_eq (n * n) (d := sineUnit) (by decide)
  have hx2 : ((n * n / sineUnit : Nat) : ℝ) = sineUnit * x ^ 2 - f := by
    rw [hf, hx]
    push_cast
    field_simp
  have hfirst : |(n : ℝ) - sineUnit * sineTerm x 0| ≤ 4 := by
    have hterm : sineUnit * sineTerm x 0 = n := by
      unfold sineTerm
      rw [hx]
      simp only [Nat.mul_zero, Nat.zero_add, pow_one, Nat.factorial_one, Nat.cast_one, div_one]
      field_simp
    rw [hterm, sub_self, abs_zero]
    norm_num
  have hseries := sineSeries_close h0 h85 hf0 hf1.le hx2 13 hfirst
  obtain ⟨v, hv⟩ : ∃ v : Int, v = sineSeries (n * n / sineUnit) 13 0 n := ⟨_, rfl⟩
  rw [← hv] at hseries
  have hscaled : |(v : ℝ) / sineUnit - sineTail x 13 0| ≤ 52 / 2 ^ 64 := by
    have hdiv : (v : ℝ) / sineUnit - sineTail x 13 0 = (v - sineUnit * sineTail x 13 0) / sineUnit := by field_simp
    rw [hdiv, abs_div, abs_of_pos hU]
    refine (div_le_div_of_nonneg_right hseries hU.le).trans ?_
    norm_num [sineUnit]
  have htaylor := abs_sin_sub_sineTail h0 h85
  have hlipschitz := (Real.abs_sin_sub_sin_le x (stepAngle k)).trans hclose
  have hvalue : |(v : ℝ) / sineUnit - Real.sin (stepAngle k)| ≤ 1 / 2 ^ 57 := by
    rw [abs_le] at hscaled htaylor hlipschitz ⊢
    constructor <;> norm_num at hscaled htaylor hlipschitz ⊢ <;> linarith
  have hsin : 0 ≤ Real.sin (stepAngle k) := Real.sin_nonneg_of_nonneg_of_le_pi hangle0 (by linarith [Real.pi_pos])
  have hat : (sineAt k : ℝ) = max (v : ℝ) 0 := by
    unfold sineAt sineQuarter
    rw [← hn, ← hv]
    rcases le_total 0 v with hpos | hneg
    · rw [max_eq_left (by exact_mod_cast hpos), ← Int.cast_natCast, Int.toNat_of_nonneg hpos]
    · rw [max_eq_right (by exact_mod_cast hneg), Int.toNat_of_nonpos hneg, Nat.cast_zero]
  rw [hat]
  rcases le_total 0 (v : ℝ) with hpos | hneg
  · rw [max_eq_left hpos]
    exact hvalue
  · rw [max_eq_right hneg, zero_div, zero_sub, abs_neg, abs_of_nonneg hsin]
    have hquot : (v : ℝ) / sineUnit ≤ 0 := div_nonpos_of_nonpos_of_nonneg hneg hU.le
    have hlow := (abs_le.mp hvalue).1
    linarith

end Sys2Proof.Machine

/-! ## The samples of the synthesis and the identity stream (R148 to R151, R159) -/

namespace Sys2Proof.Machine

/-! ### The four quarters of a turn -/

theorem sineFixed_eq (p : Nat) : sineFixed 16384 p =
    if p / 16384 % 4 < 2 then (sineAt (if p / 16384 % 4 % 2 = 0 then p % 16384 else 16384 - p % 16384) : Int)
    else -(sineAt (if p / 16384 % 4 % 2 = 0 then p % 16384 else 16384 - p % 16384) : Int) := rfl

/-- The sine comes round after a turn. -/
theorem sineFixed_mod (p : Nat) : sineFixed 16384 (p % 65536) = sineFixed 16384 p := by
  have hturn : p % 65536 / 16384 % 4 = p / 16384 % 4 := by omega
  have hstep : p % 65536 % 16384 = p % 16384 := by omega
  rw [sineFixed_eq, sineFixed_eq, hturn, hstep]

/-- Half a turn on it has the other sign. -/
theorem sineFixed_add_half (p : Nat) : sineFixed 16384 (p + 32768) = -sineFixed 16384 p := by
  have hstep : (p + 32768) % 16384 = p % 16384 := by omega
  have hparity : (p + 32768) / 16384 % 4 % 2 = p / 16384 % 4 % 2 := by omega
  rw [sineFixed_eq, sineFixed_eq, hstep, hparity]
  by_cases h : p / 16384 % 4 < 2
  · rw [if_neg (by omega : ¬ (p + 32768) / 16384 % 4 < 2), if_pos h]
  · rw [if_pos (by omega : (p + 32768) / 16384 % 4 < 2), if_neg h, neg_neg]

theorem sineAt_zero : sineAt 0 = 0 := by decide

/-- The first quarter rises. -/
theorem sineFixed_first {k : Nat} (hk : k ≤ 16384) : sineFixed 16384 k = sineAt k := by
  rw [sineFixed_eq, if_pos (by omega)]
  rcases Nat.lt_or_eq_of_le hk with hlt | rfl
  · rw [if_pos (by omega), Nat.mod_eq_of_lt hlt]
  · rfl

/-- The second falls as the first rose. -/
theorem sineFixed_second {k : Nat} (hk : k ≤ 16384) : sineFixed 16384 (32768 - k) = sineAt k := by
  rcases Nat.eq_zero_or_pos k with rfl | hpos
  · rw [show 32768 - 0 = 0 + 32768 from rfl, sineFixed_add_half, sineFixed_first (Nat.zero_le _), sineAt_zero]
    rfl
  · have hturn : (32768 - k) / 16384 % 4 = 1 := by omega
    have hstep : 16384 - (32768 - k) % 16384 = k := by omega
    rw [sineFixed_eq, hturn, if_pos (by decide), if_neg (by decide), hstep]

/-- Every phase lies in a quarter, k steps from one of its ends. -/
theorem phase_cases (p : Nat) (h : p < 65536) : ∃ k, k ≤ 16384 ∧ (p = k ∨ p = 32768 - k ∨ p = k + 32768 ∨ p = 32768 - k + 32768) := by
  by_cases h1 : p ≤ 16384
  · exact ⟨p, h1, Or.inl rfl⟩
  · by_cases h2 : p ≤ 32768
    · exact ⟨32768 - p, by omega, Or.inr (Or.inl (by omega))⟩
    · by_cases h3 : p ≤ 49152
      · exact ⟨p - 32768, by omega, Or.inr (Or.inr (Or.inl (by omega)))⟩
      · exact ⟨65536 - p, by omega, Or.inr (Or.inr (Or.inr (by omega)))⟩

/-- The sine of a phase is that of its mirror image about a quarter turn. -/
theorem sineFixed_reflect {p : Nat} (h : p < 65536) : sineFixed 16384 (65536 - p + 32768) = sineFixed 16384 p := by
  have hround : ∀ q, sineFixed 16384 (q + 65536) = sineFixed 16384 q := fun q => by
    rw [← sineFixed_mod (q + 65536), Nat.add_mod_right, sineFixed_mod]
  obtain ⟨k, hk, hp | hp | hp | hp⟩ := phase_cases p h <;> rw [hp]
  · rw [show 65536 - k + 32768 = 32768 - k + 65536 by omega, hround, sineFixed_second hk, sineFixed_first hk]
  · rw [show 65536 - (32768 - k) + 32768 = k + 65536 by omega, hround, sineFixed_second hk, sineFixed_first hk]
  · rw [show 65536 - (k + 32768) + 32768 = 32768 - k + 32768 by omega, sineFixed_add_half, sineFixed_add_half, sineFixed_second hk,
      sineFixed_first hk]
  · rw [show 65536 - (32768 - k + 32768) + 32768 = k + 32768 by omega, sineFixed_add_half, sineFixed_add_half, sineFixed_second hk,
      sineFixed_first hk]

/-! ### The rounded sample -/

/-- A sine in fixed point, scaled by an amplitude and rounded (R151, R159). -/
def sineRound (a : Nat) (v : Int) : Int :=
  if 0 ≤ v then (min a ((2 * a * v.natAbs + sineUnit) / (2 * sineUnit)) : Nat) else -(min a ((2 * a * v.natAbs + sineUnit) / (2 * sineUnit)) : Nat)

theorem sineSample_eq (a : Nat) (phase : Half) : sineSample a phase = sineRound a (sineFixed 16384 phase.toNat) := rfl

theorem sineRound_zero (a : Nat) : sineRound a 0 = 0 := by
  have hzero : (2 * a * (0 : Int).natAbs + sineUnit) / (2 * sineUnit) = 0 := by
    rw [Int.natAbs_zero, Nat.mul_zero, Nat.zero_add]
    decide
  unfold sineRound
  rw [if_pos le_rfl, hzero, Nat.min_zero]
  rfl

theorem sineRound_neg (a : Nat) (v : Int) : sineRound a (-v) = -sineRound a v := by
  rcases lt_trichotomy v 0 with h | rfl | h
  · unfold sineRound
    rw [if_pos (by omega), if_neg (by omega), Int.natAbs_neg, neg_neg]
  · rw [neg_zero, sineRound_zero, neg_zero]
  · unfold sineRound
    rw [if_neg (by omega), if_pos (by omega), Int.natAbs_neg]

theorem sineRound_mem (a : Nat) (v : Int) : -(a : Int) ≤ sineRound a v ∧ sineRound a v ≤ a := by
  obtain ⟨n, hn⟩ : ∃ n, n = min a ((2 * a * v.natAbs + sineUnit) / (2 * sineUnit)) := ⟨_, rfl⟩
  have hle : n ≤ a := by
    rw [hn]
    exact Nat.min_le_left _ _
  unfold sineRound
  rw [← hn]
  split <;> omega

theorem sineSample_add_half (a : Nat) (phase : Half) : sineSample a (phase + 0x8000) = -sineSample a phase := by
  rw [sineSample_eq, sineSample_eq, BitVec.toNat_add, ← sineRound_neg, ← sineFixed_add_half]
  exact congrArg (sineRound a) (sineFixed_mod _)

theorem sineSample_reflect (a : Nat) (phase : Half) : sineSample a (0x8000 - phase) = sineSample a phase := by
  rw [sineSample_eq, sineSample_eq, BitVec.toNat_sub]
  exact congrArg (sineRound a) ((sineFixed_mod _).trans (sineFixed_reflect phase.isLt))

/-- The rounded sample of a sine close to a real one is close to its multiple. -/
theorem sineRound_close {a v : Nat} (ha : a ≤ 8191) {y : ℝ} (hy1 : y ≤ 1) (hv : |(v : ℝ) / sineUnit - y| ≤ 1 / 2 ^ 57) :
    |((sineRound a v : Int) : ℝ) - a * y| ≤ 1 / 2 + 1 / 2 ^ 40 := by
  have ha0 : (0 : ℝ) ≤ a := Nat.cast_nonneg a
  have ha' : (a : ℝ) ≤ 8191 := by exact_mod_cast ha
  obtain ⟨n, hn⟩ : ∃ n : Nat, n = (2 * a * v + sineUnit) / (2 * sineUnit) := ⟨_, rfl⟩
  have hround : ((sineRound a v : Int) : ℝ) = min (a : ℝ) n := by
    unfold sineRound
    rw [if_pos (Int.natCast_nonneg v), Int.natAbs_natCast, ← hn]
    push_cast
    rfl
  obtain ⟨f, hf0, hf1, hf⟩ := cast_div_eq (2 * a * v + sineUnit) (d := 2 * sineUnit) (by decide)
  have hvalue : (n : ℝ) = a * (v / sineUnit) + 1 / 2 - f := by
    have hU := sineUnit_pos
    rw [hn, hf]
    push_cast
    field_simp
  have hscaled : |(a : ℝ) * (v / sineUnit) - a * y| ≤ 8191 * (1 / 2 ^ 57) := by
    rw [← mul_sub, abs_mul, abs_of_nonneg ha0]
    exact mul_le_mul ha' hv (abs_nonneg _) (by norm_num)
  have hnear : |(n : ℝ) - a * y| ≤ 1 / 2 + 1 / 2 ^ 40 := by
    rw [abs_le] at hscaled ⊢
    norm_num at hscaled ⊢
    constructor <;> linarith
  have hle : (a : ℝ) * y ≤ a := mul_le_of_le_one_right ha0 hy1
  rw [hround]
  rcases le_total (a : ℝ) n with h | h
  · rw [min_eq_left h, abs_of_nonneg (by linarith)]
    have hhi := (abs_le.mp hnear).2
    linarith
  · rw [min_eq_right h]
    exact hnear

/-- The real angle of a phase. -/
noncomputable def phaseAngle (p : Nat) : ℝ := 2 * Real.pi * (p : ℝ) / 65536

theorem phaseAngle_step (k : Nat) : phaseAngle k = stepAngle k := by
  unfold phaseAngle stepAngle
  ring

theorem phaseAngle_add_half (p : Nat) : Real.sin (phaseAngle (p + 32768)) = -Real.sin (phaseAngle p) := by
  have hangle : phaseAngle (p + 32768) = phaseAngle p + Real.pi := by
    unfold phaseAngle
    push_cast
    ring
  rw [hangle, Real.sin_add_pi]

theorem phaseAngle_second {k : Nat} (hk : k ≤ 16384) : Real.sin (phaseAngle (32768 - k)) = Real.sin (stepAngle k) := by
  have hangle : phaseAngle (32768 - k) = Real.pi - stepAngle k := by
    unfold phaseAngle stepAngle
    rw [Nat.cast_sub (by omega)]
    push_cast
    ring
  rw [hangle, Real.sin_pi_sub]

/-- A sine sample lies within half a unit, to 2⁻⁴⁰, of the real one. -/
theorem sineSample_close {a : Nat} (ha : a ≤ 8191) (phase : Half) :
    |(sineSample a phase : ℝ) - (a : ℝ) * Real.sin (phaseAngle phase.toNat)| ≤ 1 / 2 + 1 / 2 ^ 40 := by
  have hpositive : ∀ {k : Nat}, k ≤ 16384 → |((sineRound a (sineAt k) : Int) : ℝ) - a * Real.sin (stepAngle k)| ≤ 1 / 2 + 1 / 2 ^ 40 :=
    fun hk => sineRound_close ha (Real.sin_le_one _) (sineAt_close hk)
  have hnegative : ∀ {k : Nat}, k ≤ 16384 →
      |((sineRound a (-(sineAt k : Int)) : Int) : ℝ) - a * -Real.sin (stepAngle k)| ≤ 1 / 2 + 1 / 2 ^ 40 := by
    intro k hk
    rw [sineRound_neg, Int.cast_neg, mul_neg, ← neg_add', abs_neg, ← sub_eq_add_neg]
    exact hpositive hk
  rw [sineSample_eq]
  obtain ⟨k, hk, h | h | h | h⟩ := phase_cases phase.toNat phase.isLt <;> rw [h]
  · rw [sineFixed_first hk, phaseAngle_step]
    exact hpositive hk
  · rw [sineFixed_second hk, phaseAngle_second hk]
    exact hpositive hk
  · rw [sineFixed_add_half, phaseAngle_add_half, sineFixed_first hk, phaseAngle_step]
    exact hnegative hk
  · rw [sineFixed_add_half, phaseAngle_add_half, sineFixed_second hk, phaseAngle_second hk]
    exact hnegative hk

/-- Where the real value is whole, the sample is it. -/
theorem sineSample_of_sin {a : Nat} (ha : a ≤ 8191) (phase : Half) {z : Int} (hz : Real.sin (phaseAngle phase.toNat) = z) :
    sineSample a phase = a * z := by
  have hclose := sineSample_close ha phase
  rw [hz] at hclose
  have hlt : |((sineSample a phase - a * z : Int) : ℝ)| < 1 := by
    push_cast
    refine hclose.trans_lt ?_
    norm_num
  have hzero : sineSample a phase - a * z = 0 := by
    rw [← Int.cast_abs] at hlt
    exact Int.abs_lt_one_iff.mp (by exact_mod_cast hlt)
  omega

/-- The sample at the quarter turns. -/
theorem sineSample_quarters {a : Nat} (ha : a ≤ 8191) : sineSample a 0 = 0 ∧ sineSample a 0x4000 = a ∧ sineSample a 0x8000 = 0 ∧
    sineSample a 0xC000 = -(a : Int) := by
  have hzero : sineSample a 0 = 0 := by
    rw [sineSample_of_sin ha 0 (z := 0) (by simp [phaseAngle]), mul_zero]
  have hquarter : sineSample a 0x4000 = a := by
    rw [sineSample_of_sin ha 0x4000 (z := 1), mul_one]
    have hangle : phaseAngle (0x4000 : Half).toNat = Real.pi / 2 := by
      rw [show (0x4000 : Half).toNat = 16384 from rfl]
      unfold phaseAngle
      push_cast
      ring
    rw [hangle, Real.sin_pi_div_two, Int.cast_one]
  refine ⟨hzero, hquarter, ?_, ?_⟩
  · rw [show (0x8000 : Half) = 0 + 0x8000 from rfl, sineSample_add_half, hzero, neg_zero]
  · rw [show (0xC000 : Half) = 0x4000 + 0x8000 from rfl, sineSample_add_half, hquarter]

/-! ### The samples of identity and tone -/

theorem Ident.sample_toInt (i : Ident) : i.sample.toInt = sineSample 2048 i.phase := by
  obtain ⟨hlo, hhi⟩ := sineRound_mem 2048 (sineFixed 16384 i.phase.toNat)
  rw [← sineSample_eq] at hlo hhi
  exact sat_toInt_of_mem (by omega) (by omega)

theorem toneComponent_eq (f a : Nat) (phase : Half) : toneComponent f a phase = if f = 0 ∨ a = 0 then 0 else sineSample a phase := by
  unfold toneComponent
  exact if_congr (by simp) rfl rfl

theorem Tone.sample_off {t : Tone} (h : t.half = false) : t.sample = 0 := if_neg (Bool.eq_false_iff.mp h)

theorem Tone.sample_on {t : Tone} (h : t.half = true) :
    t.sample.toInt = max (-8192) (min 8191 (toneComponent t.f1 t.a1 t.ph1 + toneComponent t.f2 t.a2 t.ph2)) := by
  unfold Tone.sample
  rw [if_pos h, sat_toInt]

/-! ### The identity stream (R149) -/

section Stream

variable (buffer : List Byte)

theorem streamBit_seizure {k : Nat} (h : k < 300) : streamBit buffer k = (k % 2 == 1) := if_pos h

theorem streamBit_marks {k : Nat} (hlo : 300 ≤ k) (hhi : k < 480) : streamBit buffer k = true := by
  unfold streamBit
  rw [if_neg (Nat.not_lt.mpr hlo), if_pos hhi]

theorem streamBit_beyond {k : Nat} (h : 480 + 10 * buffer.length ≤ k) : streamBit buffer k = true := by
  unfold streamBit streamBits
  rw [if_neg (by omega), if_neg (by omega), if_pos h]

/-- Bit i of the frame of byte j: the start bit, the data bits from the least significant, and the stop bit. -/
theorem streamBit_byte {j : Nat} {b : Byte} (hb : buffer[j]? = some b) {i : Nat} (hi : i < 10) :
    streamBit buffer (480 + 10 * j + i) = if i = 0 then false else if i = 9 then true else b.getLsbD (i - 1) := by
  have hj := (List.getElem?_eq_some_iff.mp hb).1
  have hbit : (480 + 10 * j + i - 480) % 10 = i := by omega
  have hbyte : (480 + 10 * j + i - 480) / 10 = j := by omega
  have hget : buffer.getD j 0 = b := by rw [List.getD_eq_getElem?_getD, hb, Option.getD_some]
  unfold streamBit streamBits
  rw [if_neg (by omega), if_neg (by omega), if_neg (by omega), hbit, hbyte, hget]

/-- The bit that a sample period carries. -/
theorem streamBitAt_eq {period k : Nat} (hlo : (20 * k + 2) / 3 ≤ period) (hhi : period < (20 * (k + 1) + 2) / 3) :
    streamBitAt buffer period = streamBit buffer k := congrArg (streamBit buffer) (by omega)

end Stream

/-- Settles O45: a sine sample by the fixed-point series and the real one, the samples by their sums, and the stream bit by bit. -/
theorem identityStreamAndSynthesis : Obligations.IdentityStreamAndSynthesis := by
  unfold Obligations.IdentityStreamAndSynthesis
  refine ⟨fun a phase ha => ?sine, Ident.sample_toInt, fun t => ?tone, fun buffer => ?stream⟩
  case sine =>
    obtain ⟨hlo, hhi⟩ := sineRound_mem a (sineFixed 16384 phase.toNat)
    obtain ⟨hzero, hquarter, hhalf, hthree⟩ := sineSample_quarters ha
    exact ⟨hlo, hhi, hzero, hquarter, hhalf, hthree, sineSample_add_half a phase, sineSample_reflect a phase, sineSample_close ha phase⟩
  case tone =>
    intro component
    refine ⟨Tone.sample_off, fun h => ?_⟩
    rw [Tone.sample_on h, toneComponent_eq, toneComponent_eq]
  case stream =>
    refine ⟨rfl, fun k hk => ?_, fun k hlo hhi => streamBit_marks buffer hlo hhi, fun j b hb => ⟨?_, ?_, fun i hi => ?_⟩,
      fun k hk => streamBit_beyond buffer hk, fun period k hlo hhi => streamBitAt_eq buffer hlo hhi, ⟨_, rfl, ?_⟩, rfl, rfl,
      sum_append_identChecksum buffer⟩
    · rw [streamBit_seizure buffer hk, beq_iff_eq]
    · exact streamBit_byte buffer hb (i := 0) (by decide)
    · exact streamBit_byte buffer hb (i := 9) (by decide)
    · rw [show 480 + 10 * j + 1 + i = 480 + 10 * j + (i + 1) by omega, streamBit_byte buffer hb (by omega), if_neg (by omega), if_neg (by omega),
        Nat.add_sub_cancel]
    · unfold sendTicks streamBits
      omega

end Sys2Proof.Machine
